-- ==== Sys2Proof/Word.lean ====
section
/-! DEFINITION. Sys2Proof/Word.lean: the widths of spec/00_scope.md R5 (`DATA_BITS`, `ADDR_BITS`,
`VRAM_ADDR_BITS`). -/

namespace Sys2Proof

/-- A register or a memory cell: 8 bits (R5 `DATA_BITS`, R10, R11, R13, R14). -/
abbrev Byte := BitVec 8

/-- A CPU bus address, and the program counter: 16 bits (R5 `ADDR_BITS`, R12, R33). -/
abbrev Addr := BitVec 16

/-- A PPU VRAM address: 14 bits (R5 `VRAM_ADDR_BITS`, R30, R33). -/
abbrev VAddr := BitVec 14

end Sys2Proof
end

