-- ==== Sys2Proof/Syntax.lean ====
section
/-! DEFINITION. Sys2Proof/Syntax.lean: the instruction set of spec/30_encoding.md. `Instr` has one constructor for
each of the 151 rows of spec/opcode_table.json (R144, R146): a mnemonic in one addressing mode, carrying that row's
operand (R141). -/

namespace Sys2Proof

/-- The 56 mnemonics of R143, in its order of families. -/
inductive Mnemonic where
  | adc | sbc | and | ora | eor | bit | asl | lsr | rol | ror
  | cmp | cpx | cpy | inc | dec | inx | iny | dex | dey | lda
  | ldx | ldy | sta | stx | sty | bcc | bcs | beq | bne | bmi
  | bpl | bvc | bvs | jmp | jsr | rts | brk | rti | pha | php
  | pla | plp | tax | tay | tsx | txa | txs | tya | clc | cld
  | cli | clv | sec | sed | sei | nop
deriving DecidableEq, Repr

/-- The 13 addressing modes of spec/40_addressing_modes.md (R161 to R173). -/
inductive Mode where
  | implied
  | accumulator
  | immediate
  | zeroPage
  | zeroPageX
  | zeroPageY
  | absolute
  | absoluteX
  | absoluteY
  | indirect
  | indirectX
  | indirectY
  | relative
deriving DecidableEq, Repr

/-- An instruction: one constructor for each row of the opcode table (R144). Immediate values, zero-page addresses
and displacements are bytes, the operand of a three-byte form is a 16-bit address (R140, R141). -/
inductive Instr where
  | adcImm (v : Byte)
  | adcZp (b : Byte)
  | adcZpX (b : Byte)
  | adcAbs (w : Addr)
  | adcAbsX (w : Addr)
  | adcAbsY (w : Addr)
  | adcIndX (b : Byte)
  | adcIndY (b : Byte)
  | sbcImm (v : Byte)
  | sbcZp (b : Byte)
  | sbcZpX (b : Byte)
  | sbcAbs (w : Addr)
  | sbcAbsX (w : Addr)
  | sbcAbsY (w : Addr)
  | sbcIndX (b : Byte)
  | sbcIndY (b : Byte)
  | andImm (v : Byte)
  | andZp (b : Byte)
  | andZpX (b : Byte)
  | andAbs (w : Addr)
  | andAbsX (w : Addr)
  | andAbsY (w : Addr)
  | andIndX (b : Byte)
  | andIndY (b : Byte)
  | oraImm (v : Byte)
  | oraZp (b : Byte)
  | oraZpX (b : Byte)
  | oraAbs (w : Addr)
  | oraAbsX (w : Addr)
  | oraAbsY (w : Addr)
  | oraIndX (b : Byte)
  | oraIndY (b : Byte)
  | eorImm (v : Byte)
  | eorZp (b : Byte)
  | eorZpX (b : Byte)
  | eorAbs (w : Addr)
  | eorAbsX (w : Addr)
  | eorAbsY (w : Addr)
  | eorIndX (b : Byte)
  | eorIndY (b : Byte)
  | bitZp (b : Byte)
  | bitAbs (w : Addr)
  | aslAcc
  | aslZp (b : Byte)
  | aslZpX (b : Byte)
  | aslAbs (w : Addr)
  | aslAbsX (w : Addr)
  | lsrAcc
  | lsrZp (b : Byte)
  | lsrZpX (b : Byte)
  | lsrAbs (w : Addr)
  | lsrAbsX (w : Addr)
  | rolAcc
  | rolZp (b : Byte)
  | rolZpX (b : Byte)
  | rolAbs (w : Addr)
  | rolAbsX (w : Addr)
  | rorAcc
  | rorZp (b : Byte)
  | rorZpX (b : Byte)
  | rorAbs (w : Addr)
  | rorAbsX (w : Addr)
  | cmpImm (v : Byte)
  | cmpZp (b : Byte)
  | cmpZpX (b : Byte)
  | cmpAbs (w : Addr)
  | cmpAbsX (w : Addr)
  | cmpAbsY (w : Addr)
  | cmpIndX (b : Byte)
  | cmpIndY (b : Byte)
  | cpxImm (v : Byte)
  | cpxZp (b : Byte)
  | cpxAbs (w : Addr)
  | cpyImm (v : Byte)
  | cpyZp (b : Byte)
  | cpyAbs (w : Addr)
  | incZp (b : Byte)
  | incZpX (b : Byte)
  | incAbs (w : Addr)
  | incAbsX (w : Addr)
  | decZp (b : Byte)
  | decZpX (b : Byte)
  | decAbs (w : Addr)
  | decAbsX (w : Addr)
  | inx
  | iny
  | dex
  | dey
  | ldaImm (v : Byte)
  | ldaZp (b : Byte)
  | ldaZpX (b : Byte)
  | ldaAbs (w : Addr)
  | ldaAbsX (w : Addr)
  | ldaAbsY (w : Addr)
  | ldaIndX (b : Byte)
  | ldaIndY (b : Byte)
  | ldxImm (v : Byte)
  | ldxZp (b : Byte)
  | ldxZpY (b : Byte)
  | ldxAbs (w : Addr)
  | ldxAbsY (w : Addr)
  | ldyImm (v : Byte)
  | ldyZp (b : Byte)
  | ldyZpX (b : Byte)
  | ldyAbs (w : Addr)
  | ldyAbsX (w : Addr)
  | staZp (b : Byte)
  | staZpX (b : Byte)
  | staAbs (w : Addr)
  | staAbsX (w : Addr)
  | staAbsY (w : Addr)
  | staIndX (b : Byte)
  | staIndY (b : Byte)
  | stxZp (b : Byte)
  | stxZpY (b : Byte)
  | stxAbs (w : Addr)
  | styZp (b : Byte)
  | styZpX (b : Byte)
  | styAbs (w : Addr)
  | bccRel (d : Byte)
  | bcsRel (d : Byte)
  | beqRel (d : Byte)
  | bneRel (d : Byte)
  | bmiRel (d : Byte)
  | bplRel (d : Byte)
  | bvcRel (d : Byte)
  | bvsRel (d : Byte)
  | jmpAbs (w : Addr)
  | jmpInd (w : Addr)
  | jsrAbs (w : Addr)
  | rts
  | brk
  | rti
  | pha
  | php
  | pla
  | plp
  | tax
  | tay
  | tsx
  | txa
  | txs
  | tya
  | clc
  | cld
  | cli
  | clv
  | sec
  | sed
  | sei
  | nop
deriving DecidableEq, Repr

end Sys2Proof
end

