-- ==== Sys2Proof/WellFormed.lean ====
section
/-! DEFINITION. Sys2Proof/WellFormed.lean: what the spec checks of an instruction. An instruction as syntax has nothing
to check: every operand value of every row is legal (R147, R261). What can be ill-formed is a byte string offered as
an instruction: it may be empty, or begin with one of the 105 undefined opcode bytes, listed here from R147 itself
(the decoder is written from R144 and R146). -/

namespace Sys2Proof

/-- Every instruction is well formed: "There are no reserved fields inside defined instructions: every operand byte
value is legal" (R147); "There is no illegal-operand condition" (R261). DEDUCED (assumption 15). -/
def Instr.wellFormed : Instr → Bool := fun _ => true

/-- The 105 undefined opcode bytes, in the order and the lines of R147. -/
def undefinedOpcodes : List Byte :=
  [0x02#8, 0x03#8, 0x04#8, 0x07#8, 0x0B#8, 0x0C#8, 0x0F#8, 0x12#8, 0x13#8, 0x14#8, 0x17#8, 0x1A#8] ++
  [0x1B#8, 0x1C#8, 0x1F#8, 0x22#8, 0x23#8, 0x27#8, 0x2B#8, 0x2F#8, 0x32#8, 0x33#8, 0x34#8, 0x37#8] ++
  [0x3A#8, 0x3B#8, 0x3C#8, 0x3F#8, 0x42#8, 0x43#8, 0x44#8, 0x47#8, 0x4B#8, 0x4F#8, 0x52#8, 0x53#8] ++
  [0x54#8, 0x57#8, 0x5A#8, 0x5B#8, 0x5C#8, 0x5F#8, 0x62#8, 0x63#8, 0x64#8, 0x67#8, 0x6B#8, 0x6F#8] ++
  [0x72#8, 0x73#8, 0x74#8, 0x77#8, 0x7A#8, 0x7B#8, 0x7C#8, 0x7F#8, 0x80#8, 0x82#8, 0x83#8, 0x87#8] ++
  [0x89#8, 0x8B#8, 0x8F#8, 0x92#8, 0x93#8, 0x97#8, 0x9B#8, 0x9C#8, 0x9E#8, 0x9F#8, 0xA3#8, 0xA7#8] ++
  [0xAB#8, 0xAF#8, 0xB2#8, 0xB3#8, 0xB7#8, 0xBB#8, 0xBF#8, 0xC2#8, 0xC3#8, 0xC7#8, 0xCB#8, 0xCF#8] ++
  [0xD2#8, 0xD3#8, 0xD4#8, 0xD7#8, 0xDA#8, 0xDB#8, 0xDC#8, 0xDF#8, 0xE2#8, 0xE3#8, 0xE7#8, 0xEB#8] ++
  [0xEF#8, 0xF2#8, 0xF3#8, 0xF4#8, 0xF7#8, 0xFA#8, 0xFB#8, 0xFC#8, 0xFF#8]

/-- The opcode byte has a table entry: it is none of R147's 105. -/
def definedOpcode (op : Byte) : Bool := !undefinedOpcodes.contains op

/-- A byte string can begin an instruction: it is not empty, and its first byte is a defined opcode (R140, R147). -/
def wellFormedBytes : List Byte → Bool
  | [] => false
  | op :: _ => definedOpcode op

end Sys2Proof
end

