-- ==== Sys2Proof/Decode.lean ====
section
/-! DEFINITION. Sys2Proof/Decode.lean: the opcode table of R146 (with the mode, length, base cost and track-PC flag of
each entry), the decoder, total on any byte string and rejecting by name, and after it the encoder, written from the
columns of R144. Also the byte-order helpers of R141 that both use. -/

namespace Sys2Proof

/-- The 16-bit quantity `hi :: lo` (R6, R50). -/
def wordOf (hi lo : Byte) : Addr := hi ++ lo

/-- `w[7:0]` (R6). -/
def loByte (w : Addr) : Byte := w.extractLsb' 0 8

/-- `w[15:8]` (R6). -/
def hiByte (w : Addr) : Byte := w.extractLsb' 8 8

/-- How many operand bytes follow the opcode in a mode: formats F1, F2, F3 of R140. -/
def Mode.operandBytes : Mode → Nat
  | .implied => 0
  | .accumulator => 0
  | .immediate => 1
  | .zeroPage => 1
  | .zeroPageX => 1
  | .zeroPageY => 1
  | .absolute => 2
  | .absoluteX => 2
  | .absoluteY => 2
  | .indirect => 2
  | .indirectX => 1
  | .indirectY => 1
  | .relative => 1

/-- A mode's name in the metadata table (R142, R279). -/
def Mode.name : Mode → String
  | .implied => "implied"
  | .accumulator => "accumulator"
  | .immediate => "immediate"
  | .zeroPage => "zero-page"
  | .zeroPageX => "zero-page-X"
  | .zeroPageY => "zero-page-Y"
  | .absolute => "absolute"
  | .absoluteX => "absolute-X"
  | .absoluteY => "absolute-Y"
  | .indirect => "indirect"
  | .indirectX => "indirect-X"
  | .indirectY => "indirect-Y"
  | .relative => "relative"

/-- A mnemonic's name in the metadata table (R142, R150, R279). -/
def Mnemonic.name : Mnemonic → String
  | .adc => "ADC"
  | .sbc => "SBC"
  | .and => "AND"
  | .ora => "ORA"
  | .eor => "EOR"
  | .bit => "BIT"
  | .asl => "ASL"
  | .lsr => "LSR"
  | .rol => "ROL"
  | .ror => "ROR"
  | .cmp => "CMP"
  | .cpx => "CPX"
  | .cpy => "CPY"
  | .inc => "INC"
  | .dec => "DEC"
  | .inx => "INX"
  | .iny => "INY"
  | .dex => "DEX"
  | .dey => "DEY"
  | .lda => "LDA"
  | .ldx => "LDX"
  | .ldy => "LDY"
  | .sta => "STA"
  | .stx => "STX"
  | .sty => "STY"
  | .bcc => "BCC"
  | .bcs => "BCS"
  | .beq => "BEQ"
  | .bne => "BNE"
  | .bmi => "BMI"
  | .bpl => "BPL"
  | .bvc => "BVC"
  | .bvs => "BVS"
  | .jmp => "JMP"
  | .jsr => "JSR"
  | .rts => "RTS"
  | .brk => "BRK"
  | .rti => "RTI"
  | .pha => "PHA"
  | .php => "PHP"
  | .pla => "PLA"
  | .plp => "PLP"
  | .tax => "TAX"
  | .tay => "TAY"
  | .tsx => "TSX"
  | .txa => "TXA"
  | .txs => "TXS"
  | .tya => "TYA"
  | .clc => "CLC"
  | .cld => "CLD"
  | .cli => "CLI"
  | .clv => "CLV"
  | .sec => "SEC"
  | .sed => "SED"
  | .sei => "SEI"
  | .nop => "NOP"

/-- One opcode-table entry (R142): the byte, the mnemonic, the mode (which fixes the length), the base cycle cost, the
track-PC flag, and the instruction that operand bytes 1 and 2 make of it (R141; a mode without one ignores it). -/
structure OpEntry where
  opcode : Byte
  mnemonic : Mnemonic
  mode : Mode
  cycles : Nat
  trackPc : Bool
  build : Byte → Byte → Instr

/-- The instruction's length in bytes (R140). -/
def OpEntry.length (e : OpEntry) : Nat := e.mode.operandBytes + 1

/-- Rows 0x00 to 0x0F of R146. -/
def opcodeRows0 : List OpEntry := [
  ⟨0x00#8, .brk, .implied, 7, false, fun _ _ => .brk⟩,
  ⟨0x01#8, .ora, .indirectX, 6, true, fun b1 _ => .oraIndX b1⟩,
  ⟨0x05#8, .ora, .zeroPage, 3, true, fun b1 _ => .oraZp b1⟩,
  ⟨0x06#8, .asl, .zeroPage, 5, true, fun b1 _ => .aslZp b1⟩,
  ⟨0x08#8, .php, .implied, 3, true, fun _ _ => .php⟩,
  ⟨0x09#8, .ora, .immediate, 2, true, fun b1 _ => .oraImm b1⟩,
  ⟨0x0A#8, .asl, .accumulator, 2, true, fun _ _ => .aslAcc⟩,
  ⟨0x0D#8, .ora, .absolute, 4, true, fun b1 b2 => .oraAbs (wordOf b2 b1)⟩,
  ⟨0x0E#8, .asl, .absolute, 6, true, fun b1 b2 => .aslAbs (wordOf b2 b1)⟩]

/-- Rows 0x10 to 0x1F of R146. -/
def opcodeRows1 : List OpEntry := [
  ⟨0x10#8, .bpl, .relative, 2, false, fun b1 _ => .bplRel b1⟩,
  ⟨0x11#8, .ora, .indirectY, 5, true, fun b1 _ => .oraIndY b1⟩,
  ⟨0x15#8, .ora, .zeroPageX, 4, true, fun b1 _ => .oraZpX b1⟩,
  ⟨0x16#8, .asl, .zeroPageX, 6, true, fun b1 _ => .aslZpX b1⟩,
  ⟨0x18#8, .clc, .implied, 2, true, fun _ _ => .clc⟩,
  ⟨0x19#8, .ora, .absoluteY, 4, true, fun b1 b2 => .oraAbsY (wordOf b2 b1)⟩,
  ⟨0x1D#8, .ora, .absoluteX, 4, true, fun b1 b2 => .oraAbsX (wordOf b2 b1)⟩,
  ⟨0x1E#8, .asl, .absoluteX, 7, true, fun b1 b2 => .aslAbsX (wordOf b2 b1)⟩]

/-- Rows 0x20 to 0x2F of R146. -/
def opcodeRows2 : List OpEntry := [
  ⟨0x20#8, .jsr, .absolute, 6, false, fun b1 b2 => .jsrAbs (wordOf b2 b1)⟩,
  ⟨0x21#8, .and, .indirectX, 6, true, fun b1 _ => .andIndX b1⟩,
  ⟨0x24#8, .bit, .zeroPage, 3, true, fun b1 _ => .bitZp b1⟩,
  ⟨0x25#8, .and, .zeroPage, 3, true, fun b1 _ => .andZp b1⟩,
  ⟨0x26#8, .rol, .zeroPage, 5, true, fun b1 _ => .rolZp b1⟩,
  ⟨0x28#8, .plp, .implied, 4, true, fun _ _ => .plp⟩,
  ⟨0x29#8, .and, .immediate, 2, true, fun b1 _ => .andImm b1⟩,
  ⟨0x2A#8, .rol, .accumulator, 2, true, fun _ _ => .rolAcc⟩,
  ⟨0x2C#8, .bit, .absolute, 4, true, fun b1 b2 => .bitAbs (wordOf b2 b1)⟩,
  ⟨0x2D#8, .and, .absolute, 4, true, fun b1 b2 => .andAbs (wordOf b2 b1)⟩,
  ⟨0x2E#8, .rol, .absolute, 6, true, fun b1 b2 => .rolAbs (wordOf b2 b1)⟩]

/-- Rows 0x30 to 0x3F of R146. -/
def opcodeRows3 : List OpEntry := [
  ⟨0x30#8, .bmi, .relative, 2, false, fun b1 _ => .bmiRel b1⟩,
  ⟨0x31#8, .and, .indirectY, 5, true, fun b1 _ => .andIndY b1⟩,
  ⟨0x35#8, .and, .zeroPageX, 4, true, fun b1 _ => .andZpX b1⟩,
  ⟨0x36#8, .rol, .zeroPageX, 6, true, fun b1 _ => .rolZpX b1⟩,
  ⟨0x38#8, .sec, .implied, 2, true, fun _ _ => .sec⟩,
  ⟨0x39#8, .and, .absoluteY, 4, true, fun b1 b2 => .andAbsY (wordOf b2 b1)⟩,
  ⟨0x3D#8, .and, .absoluteX, 4, true, fun b1 b2 => .andAbsX (wordOf b2 b1)⟩,
  ⟨0x3E#8, .rol, .absoluteX, 7, true, fun b1 b2 => .rolAbsX (wordOf b2 b1)⟩]

/-- Rows 0x40 to 0x4F of R146. -/
def opcodeRows4 : List OpEntry := [
  ⟨0x40#8, .rti, .implied, 6, false, fun _ _ => .rti⟩,
  ⟨0x41#8, .eor, .indirectX, 6, true, fun b1 _ => .eorIndX b1⟩,
  ⟨0x45#8, .eor, .zeroPage, 3, true, fun b1 _ => .eorZp b1⟩,
  ⟨0x46#8, .lsr, .zeroPage, 5, true, fun b1 _ => .lsrZp b1⟩,
  ⟨0x48#8, .pha, .implied, 3, true, fun _ _ => .pha⟩,
  ⟨0x49#8, .eor, .immediate, 2, true, fun b1 _ => .eorImm b1⟩,
  ⟨0x4A#8, .lsr, .accumulator, 2, true, fun _ _ => .lsrAcc⟩,
  ⟨0x4C#8, .jmp, .absolute, 3, false, fun b1 b2 => .jmpAbs (wordOf b2 b1)⟩,
  ⟨0x4D#8, .eor, .absolute, 4, true, fun b1 b2 => .eorAbs (wordOf b2 b1)⟩,
  ⟨0x4E#8, .lsr, .absolute, 6, true, fun b1 b2 => .lsrAbs (wordOf b2 b1)⟩]

/-- Rows 0x50 to 0x5F of R146. -/
def opcodeRows5 : List OpEntry := [
  ⟨0x50#8, .bvc, .relative, 2, false, fun b1 _ => .bvcRel b1⟩,
  ⟨0x51#8, .eor, .indirectY, 5, true, fun b1 _ => .eorIndY b1⟩,
  ⟨0x55#8, .eor, .zeroPageX, 4, true, fun b1 _ => .eorZpX b1⟩,
  ⟨0x56#8, .lsr, .zeroPageX, 6, true, fun b1 _ => .lsrZpX b1⟩,
  ⟨0x58#8, .cli, .implied, 2, true, fun _ _ => .cli⟩,
  ⟨0x59#8, .eor, .absoluteY, 4, true, fun b1 b2 => .eorAbsY (wordOf b2 b1)⟩,
  ⟨0x5D#8, .eor, .absoluteX, 4, true, fun b1 b2 => .eorAbsX (wordOf b2 b1)⟩,
  ⟨0x5E#8, .lsr, .absoluteX, 7, true, fun b1 b2 => .lsrAbsX (wordOf b2 b1)⟩]

/-- Rows 0x60 to 0x6F of R146. -/
def opcodeRows6 : List OpEntry := [
  ⟨0x60#8, .rts, .implied, 6, false, fun _ _ => .rts⟩,
  ⟨0x61#8, .adc, .indirectX, 6, true, fun b1 _ => .adcIndX b1⟩,
  ⟨0x65#8, .adc, .zeroPage, 3, true, fun b1 _ => .adcZp b1⟩,
  ⟨0x66#8, .ror, .zeroPage, 5, true, fun b1 _ => .rorZp b1⟩,
  ⟨0x68#8, .pla, .implied, 4, true, fun _ _ => .pla⟩,
  ⟨0x69#8, .adc, .immediate, 2, true, fun b1 _ => .adcImm b1⟩,
  ⟨0x6A#8, .ror, .accumulator, 2, true, fun _ _ => .rorAcc⟩,
  ⟨0x6C#8, .jmp, .indirect, 5, false, fun b1 b2 => .jmpInd (wordOf b2 b1)⟩,
  ⟨0x6D#8, .adc, .absolute, 4, true, fun b1 b2 => .adcAbs (wordOf b2 b1)⟩,
  ⟨0x6E#8, .ror, .absolute, 6, true, fun b1 b2 => .rorAbs (wordOf b2 b1)⟩]

/-- Rows 0x70 to 0x7F of R146. -/
def opcodeRows7 : List OpEntry := [
  ⟨0x70#8, .bvs, .relative, 2, false, fun b1 _ => .bvsRel b1⟩,
  ⟨0x71#8, .adc, .indirectY, 5, true, fun b1 _ => .adcIndY b1⟩,
  ⟨0x75#8, .adc, .zeroPageX, 4, true, fun b1 _ => .adcZpX b1⟩,
  ⟨0x76#8, .ror, .zeroPageX, 6, true, fun b1 _ => .rorZpX b1⟩,
  ⟨0x78#8, .sei, .implied, 2, true, fun _ _ => .sei⟩,
  ⟨0x79#8, .adc, .absoluteY, 4, true, fun b1 b2 => .adcAbsY (wordOf b2 b1)⟩,
  ⟨0x7D#8, .adc, .absoluteX, 4, true, fun b1 b2 => .adcAbsX (wordOf b2 b1)⟩,
  ⟨0x7E#8, .ror, .absoluteX, 7, true, fun b1 b2 => .rorAbsX (wordOf b2 b1)⟩]

/-- Rows 0x80 to 0x8F of R146. -/
def opcodeRows8 : List OpEntry := [
  ⟨0x81#8, .sta, .indirectX, 6, true, fun b1 _ => .staIndX b1⟩,
  ⟨0x84#8, .sty, .zeroPage, 3, true, fun b1 _ => .styZp b1⟩,
  ⟨0x85#8, .sta, .zeroPage, 3, true, fun b1 _ => .staZp b1⟩,
  ⟨0x86#8, .stx, .zeroPage, 3, true, fun b1 _ => .stxZp b1⟩,
  ⟨0x88#8, .dey, .implied, 2, true, fun _ _ => .dey⟩,
  ⟨0x8A#8, .txa, .implied, 2, true, fun _ _ => .txa⟩,
  ⟨0x8C#8, .sty, .absolute, 4, true, fun b1 b2 => .styAbs (wordOf b2 b1)⟩,
  ⟨0x8D#8, .sta, .absolute, 4, true, fun b1 b2 => .staAbs (wordOf b2 b1)⟩,
  ⟨0x8E#8, .stx, .absolute, 4, true, fun b1 b2 => .stxAbs (wordOf b2 b1)⟩]

/-- Rows 0x90 to 0x9F of R146. -/
def opcodeRows9 : List OpEntry := [
  ⟨0x90#8, .bcc, .relative, 2, false, fun b1 _ => .bccRel b1⟩,
  ⟨0x91#8, .sta, .indirectY, 6, true, fun b1 _ => .staIndY b1⟩,
  ⟨0x94#8, .sty, .zeroPageX, 4, true, fun b1 _ => .styZpX b1⟩,
  ⟨0x95#8, .sta, .zeroPageX, 4, true, fun b1 _ => .staZpX b1⟩,
  ⟨0x96#8, .stx, .zeroPageY, 4, true, fun b1 _ => .stxZpY b1⟩,
  ⟨0x98#8, .tya, .implied, 2, true, fun _ _ => .tya⟩,
  ⟨0x99#8, .sta, .absoluteY, 5, true, fun b1 b2 => .staAbsY (wordOf b2 b1)⟩,
  ⟨0x9A#8, .txs, .implied, 2, true, fun _ _ => .txs⟩,
  ⟨0x9D#8, .sta, .absoluteX, 5, true, fun b1 b2 => .staAbsX (wordOf b2 b1)⟩]

/-- Rows 0xA0 to 0xAF of R146. -/
def opcodeRowsA : List OpEntry := [
  ⟨0xA0#8, .ldy, .immediate, 2, true, fun b1 _ => .ldyImm b1⟩,
  ⟨0xA1#8, .lda, .indirectX, 6, true, fun b1 _ => .ldaIndX b1⟩,
  ⟨0xA2#8, .ldx, .immediate, 2, true, fun b1 _ => .ldxImm b1⟩,
  ⟨0xA4#8, .ldy, .zeroPage, 3, true, fun b1 _ => .ldyZp b1⟩,
  ⟨0xA5#8, .lda, .zeroPage, 3, true, fun b1 _ => .ldaZp b1⟩,
  ⟨0xA6#8, .ldx, .zeroPage, 3, true, fun b1 _ => .ldxZp b1⟩,
  ⟨0xA8#8, .tay, .implied, 2, true, fun _ _ => .tay⟩,
  ⟨0xA9#8, .lda, .immediate, 2, true, fun b1 _ => .ldaImm b1⟩,
  ⟨0xAA#8, .tax, .implied, 2, true, fun _ _ => .tax⟩,
  ⟨0xAC#8, .ldy, .absolute, 4, true, fun b1 b2 => .ldyAbs (wordOf b2 b1)⟩,
  ⟨0xAD#8, .lda, .absolute, 4, true, fun b1 b2 => .ldaAbs (wordOf b2 b1)⟩,
  ⟨0xAE#8, .ldx, .absolute, 4, true, fun b1 b2 => .ldxAbs (wordOf b2 b1)⟩]

/-- Rows 0xB0 to 0xBF of R146. -/
def opcodeRowsB : List OpEntry := [
  ⟨0xB0#8, .bcs, .relative, 2, false, fun b1 _ => .bcsRel b1⟩,
  ⟨0xB1#8, .lda, .indirectY, 5, true, fun b1 _ => .ldaIndY b1⟩,
  ⟨0xB4#8, .ldy, .zeroPageX, 4, true, fun b1 _ => .ldyZpX b1⟩,
  ⟨0xB5#8, .lda, .zeroPageX, 4, true, fun b1 _ => .ldaZpX b1⟩,
  ⟨0xB6#8, .ldx, .zeroPageY, 4, true, fun b1 _ => .ldxZpY b1⟩,
  ⟨0xB8#8, .clv, .implied, 2, true, fun _ _ => .clv⟩,
  ⟨0xB9#8, .lda, .absoluteY, 4, true, fun b1 b2 => .ldaAbsY (wordOf b2 b1)⟩,
  ⟨0xBA#8, .tsx, .implied, 2, true, fun _ _ => .tsx⟩,
  ⟨0xBC#8, .ldy, .absoluteX, 4, true, fun b1 b2 => .ldyAbsX (wordOf b2 b1)⟩,
  ⟨0xBD#8, .lda, .absoluteX, 4, true, fun b1 b2 => .ldaAbsX (wordOf b2 b1)⟩,
  ⟨0xBE#8, .ldx, .absoluteY, 4, true, fun b1 b2 => .ldxAbsY (wordOf b2 b1)⟩]

/-- Rows 0xC0 to 0xCF of R146. -/
def opcodeRowsC : List OpEntry := [
  ⟨0xC0#8, .cpy, .immediate, 2, true, fun b1 _ => .cpyImm b1⟩,
  ⟨0xC1#8, .cmp, .indirectX, 6, true, fun b1 _ => .cmpIndX b1⟩,
  ⟨0xC4#8, .cpy, .zeroPage, 3, true, fun b1 _ => .cpyZp b1⟩,
  ⟨0xC5#8, .cmp, .zeroPage, 3, true, fun b1 _ => .cmpZp b1⟩,
  ⟨0xC6#8, .dec, .zeroPage, 5, true, fun b1 _ => .decZp b1⟩,
  ⟨0xC8#8, .iny, .implied, 2, true, fun _ _ => .iny⟩,
  ⟨0xC9#8, .cmp, .immediate, 2, true, fun b1 _ => .cmpImm b1⟩,
  ⟨0xCA#8, .dex, .implied, 2, true, fun _ _ => .dex⟩,
  ⟨0xCC#8, .cpy, .absolute, 4, true, fun b1 b2 => .cpyAbs (wordOf b2 b1)⟩,
  ⟨0xCD#8, .cmp, .absolute, 4, true, fun b1 b2 => .cmpAbs (wordOf b2 b1)⟩,
  ⟨0xCE#8, .dec, .absolute, 6, true, fun b1 b2 => .decAbs (wordOf b2 b1)⟩]

/-- Rows 0xD0 to 0xDF of R146. -/
def opcodeRowsD : List OpEntry := [
  ⟨0xD0#8, .bne, .relative, 2, false, fun b1 _ => .bneRel b1⟩,
  ⟨0xD1#8, .cmp, .indirectY, 5, true, fun b1 _ => .cmpIndY b1⟩,
  ⟨0xD5#8, .cmp, .zeroPageX, 4, true, fun b1 _ => .cmpZpX b1⟩,
  ⟨0xD6#8, .dec, .zeroPageX, 6, true, fun b1 _ => .decZpX b1⟩,
  ⟨0xD8#8, .cld, .implied, 2, true, fun _ _ => .cld⟩,
  ⟨0xD9#8, .cmp, .absoluteY, 4, true, fun b1 b2 => .cmpAbsY (wordOf b2 b1)⟩,
  ⟨0xDD#8, .cmp, .absoluteX, 4, true, fun b1 b2 => .cmpAbsX (wordOf b2 b1)⟩,
  ⟨0xDE#8, .dec, .absoluteX, 7, true, fun b1 b2 => .decAbsX (wordOf b2 b1)⟩]

/-- Rows 0xE0 to 0xEF of R146. -/
def opcodeRowsE : List OpEntry := [
  ⟨0xE0#8, .cpx, .immediate, 2, true, fun b1 _ => .cpxImm b1⟩,
  ⟨0xE1#8, .sbc, .indirectX, 6, true, fun b1 _ => .sbcIndX b1⟩,
  ⟨0xE4#8, .cpx, .zeroPage, 3, true, fun b1 _ => .cpxZp b1⟩,
  ⟨0xE5#8, .sbc, .zeroPage, 3, true, fun b1 _ => .sbcZp b1⟩,
  ⟨0xE6#8, .inc, .zeroPage, 5, true, fun b1 _ => .incZp b1⟩,
  ⟨0xE8#8, .inx, .implied, 2, true, fun _ _ => .inx⟩,
  ⟨0xE9#8, .sbc, .immediate, 2, true, fun b1 _ => .sbcImm b1⟩,
  ⟨0xEA#8, .nop, .implied, 2, true, fun _ _ => .nop⟩,
  ⟨0xEC#8, .cpx, .absolute, 4, true, fun b1 b2 => .cpxAbs (wordOf b2 b1)⟩,
  ⟨0xED#8, .sbc, .absolute, 4, true, fun b1 b2 => .sbcAbs (wordOf b2 b1)⟩,
  ⟨0xEE#8, .inc, .absolute, 6, true, fun b1 b2 => .incAbs (wordOf b2 b1)⟩]

/-- Rows 0xF0 to 0xFF of R146. -/
def opcodeRowsF : List OpEntry := [
  ⟨0xF0#8, .beq, .relative, 2, false, fun b1 _ => .beqRel b1⟩,
  ⟨0xF1#8, .sbc, .indirectY, 5, true, fun b1 _ => .sbcIndY b1⟩,
  ⟨0xF5#8, .sbc, .zeroPageX, 4, true, fun b1 _ => .sbcZpX b1⟩,
  ⟨0xF6#8, .inc, .zeroPageX, 6, true, fun b1 _ => .incZpX b1⟩,
  ⟨0xF8#8, .sed, .implied, 2, true, fun _ _ => .sed⟩,
  ⟨0xF9#8, .sbc, .absoluteY, 4, true, fun b1 b2 => .sbcAbsY (wordOf b2 b1)⟩,
  ⟨0xFD#8, .sbc, .absoluteX, 4, true, fun b1 b2 => .sbcAbsX (wordOf b2 b1)⟩,
  ⟨0xFE#8, .inc, .absoluteX, 7, true, fun b1 b2 => .incAbsX (wordOf b2 b1)⟩]

/-- The opcode table: the 151 entries of R146 in order of opcode. -/
def opcodeTable : List OpEntry :=
  opcodeRows0 ++ opcodeRows1 ++ opcodeRows2 ++ opcodeRows3 ++ opcodeRows4 ++ opcodeRows5 ++ opcodeRows6 ++ opcodeRows7 ++
  opcodeRows8 ++ opcodeRows9 ++ opcodeRowsA ++ opcodeRowsB ++ opcodeRowsC ++ opcodeRowsD ++ opcodeRowsE ++ opcodeRowsF

/-- `OpcodeTable[op]` (R24, R296): the entry of an opcode byte, none for an undefined one. -/
def opEntry (op : Byte) : Option OpEntry := opcodeTable.find? (fun e => e.opcode == op)

/-- What decoding a byte string answers: an instruction with the bytes after it, or a rejection by name. -/
inductive DecodeResult where
  /-- The instruction, and the bytes that follow it. -/
  | ok (i : Instr) (rest : List Byte)
  /-- The first byte has no opcode-table entry (R147). -/
  | undefinedOpcode (op : Byte)
  /-- The byte string ends before the instruction does. -/
  | truncated
deriving DecidableEq, Repr

/-- Decoding (R140, R141): the length is a function of the opcode byte alone, operands are little-endian. -/
def decode : List Byte → DecodeResult
  | [] => .truncated
  | op :: rest =>
    match opEntry op with
    | none => .undefinedOpcode op
    | some e =>
      match e.mode.operandBytes, rest with
      | 0, rest => .ok (e.build 0#8 0#8) rest
      | 1, b1 :: rest => .ok (e.build b1 0#8) rest
      | 2, b1 :: b2 :: rest => .ok (e.build b1 b2) rest
      | _, _ => .truncated

/-- A three-byte operand in memory order: low byte first (R141). -/
def encodeAbs (op : Byte) (w : Addr) : List Byte := [op, loByte w, hiByte w]

/-- Encoding: the bytes of an instruction, from the columns of R144 and the formats of R140 and R141. -/
def encode : Instr → List Byte
  | .adcImm v => [0x69#8, v]
  | .adcZp b => [0x65#8, b]
  | .adcZpX b => [0x75#8, b]
  | .adcAbs w => encodeAbs 0x6D#8 w
  | .adcAbsX w => encodeAbs 0x7D#8 w
  | .adcAbsY w => encodeAbs 0x79#8 w
  | .adcIndX b => [0x61#8, b]
  | .adcIndY b => [0x71#8, b]
  | .sbcImm v => [0xE9#8, v]
  | .sbcZp b => [0xE5#8, b]
  | .sbcZpX b => [0xF5#8, b]
  | .sbcAbs w => encodeAbs 0xED#8 w
  | .sbcAbsX w => encodeAbs 0xFD#8 w
  | .sbcAbsY w => encodeAbs 0xF9#8 w
  | .sbcIndX b => [0xE1#8, b]
  | .sbcIndY b => [0xF1#8, b]
  | .andImm v => [0x29#8, v]
  | .andZp b => [0x25#8, b]
  | .andZpX b => [0x35#8, b]
  | .andAbs w => encodeAbs 0x2D#8 w
  | .andAbsX w => encodeAbs 0x3D#8 w
  | .andAbsY w => encodeAbs 0x39#8 w
  | .andIndX b => [0x21#8, b]
  | .andIndY b => [0x31#8, b]
  | .oraImm v => [0x09#8, v]
  | .oraZp b => [0x05#8, b]
  | .oraZpX b => [0x15#8, b]
  | .oraAbs w => encodeAbs 0x0D#8 w
  | .oraAbsX w => encodeAbs 0x1D#8 w
  | .oraAbsY w => encodeAbs 0x19#8 w
  | .oraIndX b => [0x01#8, b]
  | .oraIndY b => [0x11#8, b]
  | .eorImm v => [0x49#8, v]
  | .eorZp b => [0x45#8, b]
  | .eorZpX b => [0x55#8, b]
  | .eorAbs w => encodeAbs 0x4D#8 w
  | .eorAbsX w => encodeAbs 0x5D#8 w
  | .eorAbsY w => encodeAbs 0x59#8 w
  | .eorIndX b => [0x41#8, b]
  | .eorIndY b => [0x51#8, b]
  | .bitZp b => [0x24#8, b]
  | .bitAbs w => encodeAbs 0x2C#8 w
  | .aslAcc => [0x0A#8]
  | .aslZp b => [0x06#8, b]
  | .aslZpX b => [0x16#8, b]
  | .aslAbs w => encodeAbs 0x0E#8 w
  | .aslAbsX w => encodeAbs 0x1E#8 w
  | .lsrAcc => [0x4A#8]
  | .lsrZp b => [0x46#8, b]
  | .lsrZpX b => [0x56#8, b]
  | .lsrAbs w => encodeAbs 0x4E#8 w
  | .lsrAbsX w => encodeAbs 0x5E#8 w
  | .rolAcc => [0x2A#8]
  | .rolZp b => [0x26#8, b]
  | .rolZpX b => [0x36#8, b]
  | .rolAbs w => encodeAbs 0x2E#8 w
  | .rolAbsX w => encodeAbs 0x3E#8 w
  | .rorAcc => [0x6A#8]
  | .rorZp b => [0x66#8, b]
  | .rorZpX b => [0x76#8, b]
  | .rorAbs w => encodeAbs 0x6E#8 w
  | .rorAbsX w => encodeAbs 0x7E#8 w
  | .cmpImm v => [0xC9#8, v]
  | .cmpZp b => [0xC5#8, b]
  | .cmpZpX b => [0xD5#8, b]
  | .cmpAbs w => encodeAbs 0xCD#8 w
  | .cmpAbsX w => encodeAbs 0xDD#8 w
  | .cmpAbsY w => encodeAbs 0xD9#8 w
  | .cmpIndX b => [0xC1#8, b]
  | .cmpIndY b => [0xD1#8, b]
  | .cpxImm v => [0xE0#8, v]
  | .cpxZp b => [0xE4#8, b]
  | .cpxAbs w => encodeAbs 0xEC#8 w
  | .cpyImm v => [0xC0#8, v]
  | .cpyZp b => [0xC4#8, b]
  | .cpyAbs w => encodeAbs 0xCC#8 w
  | .incZp b => [0xE6#8, b]
  | .incZpX b => [0xF6#8, b]
  | .incAbs w => encodeAbs 0xEE#8 w
  | .incAbsX w => encodeAbs 0xFE#8 w
  | .decZp b => [0xC6#8, b]
  | .decZpX b => [0xD6#8, b]
  | .decAbs w => encodeAbs 0xCE#8 w
  | .decAbsX w => encodeAbs 0xDE#8 w
  | .inx => [0xE8#8]
  | .iny => [0xC8#8]
  | .dex => [0xCA#8]
  | .dey => [0x88#8]
  | .ldaImm v => [0xA9#8, v]
  | .ldaZp b => [0xA5#8, b]
  | .ldaZpX b => [0xB5#8, b]
  | .ldaAbs w => encodeAbs 0xAD#8 w
  | .ldaAbsX w => encodeAbs 0xBD#8 w
  | .ldaAbsY w => encodeAbs 0xB9#8 w
  | .ldaIndX b => [0xA1#8, b]
  | .ldaIndY b => [0xB1#8, b]
  | .ldxImm v => [0xA2#8, v]
  | .ldxZp b => [0xA6#8, b]
  | .ldxZpY b => [0xB6#8, b]
  | .ldxAbs w => encodeAbs 0xAE#8 w
  | .ldxAbsY w => encodeAbs 0xBE#8 w
  | .ldyImm v => [0xA0#8, v]
  | .ldyZp b => [0xA4#8, b]
  | .ldyZpX b => [0xB4#8, b]
  | .ldyAbs w => encodeAbs 0xAC#8 w
  | .ldyAbsX w => encodeAbs 0xBC#8 w
  | .staZp b => [0x85#8, b]
  | .staZpX b => [0x95#8, b]
  | .staAbs w => encodeAbs 0x8D#8 w
  | .staAbsX w => encodeAbs 0x9D#8 w
  | .staAbsY w => encodeAbs 0x99#8 w
  | .staIndX b => [0x81#8, b]
  | .staIndY b => [0x91#8, b]
  | .stxZp b => [0x86#8, b]
  | .stxZpY b => [0x96#8, b]
  | .stxAbs w => encodeAbs 0x8E#8 w
  | .styZp b => [0x84#8, b]
  | .styZpX b => [0x94#8, b]
  | .styAbs w => encodeAbs 0x8C#8 w
  | .bccRel d => [0x90#8, d]
  | .bcsRel d => [0xB0#8, d]
  | .beqRel d => [0xF0#8, d]
  | .bneRel d => [0xD0#8, d]
  | .bmiRel d => [0x30#8, d]
  | .bplRel d => [0x10#8, d]
  | .bvcRel d => [0x50#8, d]
  | .bvsRel d => [0x70#8, d]
  | .jmpAbs w => encodeAbs 0x4C#8 w
  | .jmpInd w => encodeAbs 0x6C#8 w
  | .jsrAbs w => encodeAbs 0x20#8 w
  | .rts => [0x60#8]
  | .brk => [0x00#8]
  | .rti => [0x40#8]
  | .pha => [0x48#8]
  | .php => [0x08#8]
  | .pla => [0x68#8]
  | .plp => [0x28#8]
  | .tax => [0xAA#8]
  | .tay => [0xA8#8]
  | .tsx => [0xBA#8]
  | .txa => [0x8A#8]
  | .txs => [0x9A#8]
  | .tya => [0x98#8]
  | .clc => [0x18#8]
  | .cld => [0xD8#8]
  | .cli => [0x58#8]
  | .clv => [0xB8#8]
  | .sec => [0x38#8]
  | .sed => [0xF8#8]
  | .sei => [0x78#8]
  | .nop => [0xEA#8]

/-- The bytes of the number `w` in the table's numbering, lowest first: at most three (R140). -/
def bytesOfWord (nbits w : Nat) : List Byte :=
  let v := w % 2 ^ nbits
  [BitVec.ofNat 8 v, BitVec.ofNat 8 (v / 256), BitVec.ofNat 8 (v / 65536)]

/-- The instruction the decoder reads from the bits `w` of an opcode-table row of `nbits` bits (the bits above them are
zero); none where the decoder refuses. -/
def decodeTableWord (nbits w : Nat) : Option Instr :=
  match decode (bytesOfWord nbits w) with
  | .ok i _ => some i
  | .undefinedOpcode _ => none
  | .truncated => none

end Sys2Proof
end

