-- ==== Sys2Proof/Config.lean ====
section
/-! DEFINITION. Sys2Proof/Config.lean: the implementation parameters of spec/00_scope.md R5, each at the value R5
states, and the two free values of the model (what the PPU finds where no cartridge is installed). -/

namespace Sys2Proof

/-- Where the four nametables of the PPU lie in the 2 KB of nametable RAM: the closed enumeration that
`MapperMirroring()` answers with (R71, R118). -/
inductive Mirroring where
  | horizontal
  | vertical
  | oneScreenLow
  | oneScreenHigh
deriving DecidableEq, Repr, Inhabited

namespace Config

/-- R5 `VEC_NMI`, R53. -/
def vecNmi : Addr := 0xFFFA#16
/-- R5 `VEC_RESET`, R53. -/
def vecReset : Addr := 0xFFFC#16
/-- R5 `VEC_IRQ`, R53: shared by IRQ and BRK. -/
def vecIrq : Addr := 0xFFFE#16
/-- R5 `RESET_SP`, R290. -/
def resetSp : Byte := 0xFD#8
/-- R5 `RESET_P`, R290: I and U set, the other flags clear. -/
def resetP : Byte := 0x24#8
/-- R5 `NMI_CYCLES`, R265; R268 gives `irq()` the same cost. -/
def nmiCycles : Nat := 7
/-- R5 `PPU_PER_CPU`, R128. -/
def ppuPerCpu : Nat := 3
/-- R5 `STUB_READ`: what a load from an unmodelled region answers (R45, R72, R120). -/
def stubRead : Byte := 0x00#8
/-- R5 `PRG_BANK`: the unit of the image's PRG count, in bytes. -/
def prgBankSize : Nat := 16384
/-- R5 `CHR_BANK`: the unit of the image's CHR count, in bytes. -/
def chrBankSize : Nat := 8192
/-- R5 `RAM_SIZE`, R25. -/
def ramSize : Nat := 2048
/-- R5 `OAM_SIZE`, R29. -/
def oamSize : Nat := 256
/-- R5 `NT_RAM_SIZE`, R29. -/
def ntSize : Nat := 2048
/-- R5 `PAL_SIZE`, R29. -/
def palSize : Nat := 32
/-- R5 `DMA_STALL`, R126 (an OPEN parameter of the spec, at its default; assumption 5). -/
def dmaStall : Nat := 513
/-- R5 `DOTS_PER_LINE`, R128. -/
def dotsPerLine : Nat := 341
/-- R5 `LINES_PER_FRAME`, R128. -/
def linesPerFrame : Nat := 262
/-- R5 `VBLANK_SET`, R129: the scanline on whose dot 1 vblank starts. -/
def vblankSetLine : Nat := 241
/-- R5 `VBLANK_CLEAR`, R130: the pre-render scanline, on whose dot 1 vblank ends. -/
def vblankClearLine : Nat := 261
/-- R129 `NMI_GATE`: whether `ctrl[7]` gates the NMI request (an OPEN parameter of the spec, at its default;
assumption 5). -/
def nmiGate : Bool := true

/-- DESIGN CHOICE (assumption 3): the mirroring the PPU sees while no cartridge is installed. The spec states none
(R71 gives `MapperMirroring()` to an engine only), so this is a free value: nothing constrains it. -/
opaque noCartMirroring : Mirroring

/-- DESIGN CHOICE (assumption 3): the byte the PPU reads from pattern memory at a VRAM address while no cartridge is
installed. The spec states none, so this is a free value: nothing constrains it. -/
opaque noCartPattern : VAddr → Byte

end Config

end Sys2Proof
end

