-- ==== Sys2Proof/Machine/State.lean ====
section
/-! DEFINITION. Sys2Proof/Machine/State.lean: every piece of state the spec gives the block (spec/10_state.md R10 to
R32), as plain data, with its value after construction and the first `reset()` (R35), and the reasons a step can
stop. -/

namespace Sys2Proof.Machine

/-- A memory of byte cells: the cells that hold something other than `Memory.unlisted`, at rising addresses. Used for
work RAM, OAM, nametable and palette RAM, CHR RAM, and the PRG and CHR bytes of a cartridge. -/
abbrev Memory := List Host.Cell

/-- The Cartridge record (R26, R68): "never mutated after construction". -/
structure Cartridge where
  /-- PRG bank count, in units of 16 KB (R66). -/
  prgBanks : Nat
  /-- CHR bank count, in units of 8 KB; 0 stands for CHR RAM (R66, R73). -/
  chrBanks : Nat
  /-- RAM bank count, used by no rule (R66, R72). -/
  ramBanks : Nat
  /-- The mapper id of the header (R66, R70). -/
  mapperId : Byte
  /-- The header's mirroring mode, `horizontal` or `vertical` (R67). -/
  mirroring : Mirroring
  /-- PRG ROM, by offset. -/
  prg : Memory
  /-- CHR ROM, by offset (empty when `chrBanks = 0`). -/
  chr : Memory
deriving DecidableEq, Repr

/-- The registers of the serial engine M1 (R78). -/
structure M1Regs where
  shift : BitVec 5
  /-- 0 to 4 bits accumulated. -/
  count : Nat
  control : BitVec 5
  chrBank0 : BitVec 5
  chrBank1 : BitVec 5
  prgBank : BitVec 5
deriving DecidableEq, Repr

/-- The engine of the active Mapper with its registers (R70, R74, R78, R85, R88). -/
inductive Engine where
  | m0
  | m1 (r : M1Regs)
  | m2 (bank : Byte)
  | m3 (chrBank : Byte)
deriving DecidableEq, Repr

/-- An installed cartridge with its Mapper, whose "lifecycle [is] tied 1:1 to the loaded Cartridge" (R26, R27).
`chrRam` is in use only when `cart.chrBanks = 0` (R73). -/
structure Slot where
  cart : Cartridge
  engine : Engine
  chrRam : Memory
deriving DecidableEq, Repr

/-- The PPU interface (R28 to R32). -/
structure Ppu where
  ctrl : Byte
  mask : Byte
  status : Byte
  oamAddr : Byte
  oam : Memory
  nt : Memory
  pal : Memory
  vramAddr : VAddr
  /-- The write toggle: false is "high byte next". -/
  w : Bool
  readBuf : Byte
  scrollX : Byte
  scrollY : Byte
  /-- 0 to 261. -/
  scanline : Nat
  /-- 0 to 340. -/
  dot : Nat
  nmiRequest : Bool
  newFrame : Bool
  dmaDone : Bool
deriving DecidableEq, Repr

/-- The state of the block: the CPU registers (R10 to R14, R18), the Halted record (R23), work RAM (R25), the
cartridge slot (R26, R27) and the PPU interface. -/
structure State where
  a : Byte
  x : Byte
  y : Byte
  sp : Byte
  /-- The status register: C, Z, I, D, B, U, V, N from bit 0 up (R14). -/
  p : Byte
  pc : Addr
  cyc : Nat
  /-- none, or the opcode and the address of a fatal dispatch (R23, R260). -/
  halted : Option (Byte × Addr)
  ram : Memory
  /-- none while no cartridge is installed. -/
  slot : Option Slot
  ppu : Ppu
deriving DecidableEq, Repr

/-- Why a step can end in a fault. -/
inductive Fault where
  /-- The fatal dispatch error of R260, raised by `step` on one of the 105 undefined opcodes (R147), with the record
  `halted` holds afterwards: "A model treats Halted as a **fault**". Safe: no claim is made of such a run. -/
  | fatalDispatch (opcode : Byte) (addr : Addr)
deriving DecidableEq, Repr

/-- Why the model gives a step no meaning. -/
inductive Refusal where
  /-- An instruction without a meaning yet, raised by `exec`'s arm for it. Safe. No arm of this model raises it. -/
  | notModelled (mnemonic : String)
  /-- `reset()` or `step()` was called with no cartridge installed, outside the host contract (R48, R292, U11):
  raised by `step` and the host operations before anything is fetched. Safe. -/
  | noCartridge
deriving DecidableEq, Repr

/-- The PPU interface after construction (R35); `reset()` leaves it unchanged. -/
def Ppu.constructed : Ppu where
  ctrl := 0#8
  mask := 0#8
  status := 0#8
  oamAddr := 0#8
  oam := []
  nt := []
  pal := []
  vramAddr := 0#14
  w := false
  readBuf := 0#8
  scrollX := 0#8
  scrollY := 0#8
  scanline := 0
  dot := 0
  nmiRequest := false
  newFrame := false
  dmaDone := false

/-- The block after construction, before any cartridge is installed: the first column of R35 (the spec's decision D10;
assumption 4). -/
def State.constructed : State where
  a := 0#8
  x := 0#8
  y := 0#8
  sp := Config.resetSp
  p := Config.resetP
  pc := 0#16
  cyc := 0
  halted := none
  ram := []
  slot := none
  ppu := Ppu.constructed

/-- The block right after `reset()`: the second column of R35 over the construction values. The vector comes from the
cartridge; with none installed the Bus answers 0, so `PC` is 0x0000 (R292; assumption 10). -/
def State.reset : State where
  a := 0#8
  x := 0#8
  y := 0#8
  sp := Config.resetSp
  p := Config.resetP
  pc := 0#16
  cyc := 0
  halted := none
  ram := []
  slot := none
  ppu := Ppu.constructed

/-! One setter for each field that a shared operation writes on its own. -/

def State.setA (s : State) (v : Byte) : State := { s with a := v }
def State.setX (s : State) (v : Byte) : State := { s with x := v }
def State.setY (s : State) (v : Byte) : State := { s with y := v }
def State.setSp (s : State) (v : Byte) : State := { s with sp := v }
def State.setP (s : State) (v : Byte) : State := { s with p := v }
def State.setPc (s : State) (v : Addr) : State := { s with pc := v }
def State.setCyc (s : State) (v : Nat) : State := { s with cyc := v }
def State.setHalted (s : State) (v : Option (Byte × Addr)) : State := { s with halted := v }
def State.setRam (s : State) (v : Memory) : State := { s with ram := v }
def State.setSlot (s : State) (v : Option Slot) : State := { s with slot := v }
def State.setPpu (s : State) (v : Ppu) : State := { s with ppu := v }

end Sys2Proof.Machine
end

