-- ==== Sys2Proof/Machine/Flags.lean ====
section
/-! DEFINITION. Sys2Proof/Machine/Flags.lean: the status register's flags (R14, R15), and every flag computation of the
instruction set as a function of the bytes it depends on (R17, R180, R181, R188, R190 to R193, R198). -/

namespace Sys2Proof.Machine

/-- The flags of `P`: "a fixed set of named bit positions (a closed enumeration) over an 8-bit integer" (R14, R15). -/
inductive Flag where
  | carry
  | zero
  | interruptDisable
  | decimal
  | breakBit
  | unused
  | overflow
  | negative
deriving DecidableEq, Repr

/-- The bit of `P` that holds the flag (R14). -/
def Flag.bit : Flag → Nat
  | .carry => 0
  | .zero => 1
  | .interruptDisable => 2
  | .decimal => 3
  | .breakBit => 4
  | .unused => 5
  | .overflow => 6
  | .negative => 7

/-- `mask_f` (R14, R15). -/
def Flag.mask (f : Flag) : Byte := 1#8 <<< f.bit

/-- `GetFlag(f)` (R15). -/
def getFlag (f : Flag) (p : Byte) : Bool := (p &&& f.mask) != 0#8

/-- `SetFlag(f)` (R15). -/
def setFlag (f : Flag) (p : Byte) : Byte := p ||| f.mask

/-- `ClearFlag(f)` (R15). -/
def clearFlag (f : Flag) (p : Byte) : Byte := p &&& ~~~f.mask

/-- `P.f <- c` (R15). -/
def putFlag (f : Flag) (c : Bool) (p : Byte) : Byte := if c then setFlag f p else clearFlag f p

/-- `SetZN(v)` (R17). -/
def setZN (v p : Byte) : Byte := putFlag .negative (v.getLsbD 7) (putFlag .zero (v == 0#8) p)

/-- A carry as a number. -/
def carryNat (p : Byte) : Nat := if getFlag .carry p then 1 else 0

/-- ADC's result and status from the status, `A` and the operand (R180); binary whatever `P.D` is (R182). -/
def adcFlags (p a m : Byte) : Byte × Byte :=
  let t := a.toNat + m.toNat + carryNat p
  let r := BitVec.ofNat 8 t
  (r, setZN r (putFlag .overflow (((a ^^^ r) &&& (m ^^^ r) &&& 0x80#8) != 0#8) (putFlag .carry (decide (0xFF < t)) p)))

/-- SBC's result and status: ADC of the operand's one's complement (R181). -/
def sbcFlags (p a m : Byte) : Byte × Byte := adcFlags p a (m ^^^ 0xFF#8)

/-- AND's result and status (R185). -/
def andFlags (p a m : Byte) : Byte × Byte := (a &&& m, setZN (a &&& m) p)

/-- ORA's result and status (R186). -/
def oraFlags (p a m : Byte) : Byte × Byte := (a ||| m, setZN (a ||| m) p)

/-- EOR's result and status (R187). -/
def eorFlags (p a m : Byte) : Byte × Byte := (a ^^^ m, setZN (a ^^^ m) p)

/-- LDA's result and status (R207): the old `A` takes no part. -/
def ldaFlags (p _a m : Byte) : Byte × Byte := (m, setZN m p)

/-- INC's result and status (R200): neither C nor V. -/
def incFlags (p m : Byte) : Byte × Byte := (m + 1#8, setZN (m + 1#8) p)

/-- DEC's result and status (R201): neither C nor V. -/
def decFlags (p m : Byte) : Byte × Byte := (m - 1#8, setZN (m - 1#8) p)

/-- BIT's status (R188). -/
def bitFlags (p a m : Byte) : Byte :=
  putFlag .overflow (m.getLsbD 6) (putFlag .negative (m.getLsbD 7) (putFlag .zero ((a &&& m) == 0#8) p))

/-- `Compare(r, M)`: its status (R198). -/
def compareFlags (p r m : Byte) : Byte := setZN (r - m) (putFlag .carry (decide (m.toNat ≤ r.toNat)) p)

/-- ASL's result and status (R190). -/
def aslFlags (p m : Byte) : Byte × Byte :=
  let r := m <<< 1
  (r, setZN r (putFlag .carry (m.getLsbD 7) p))

/-- LSR's result and status (R191). -/
def lsrFlags (p m : Byte) : Byte × Byte :=
  let r := m >>> 1
  (r, setZN r (putFlag .carry (m.getLsbD 0) p))

/-- ROL's result and status (R192): the old carry enters bit 0. -/
def rolFlags (p m : Byte) : Byte × Byte :=
  let r := (m <<< 1) ||| (if getFlag .carry p then 1#8 else 0#8)
  (r, setZN r (putFlag .carry (m.getLsbD 7) p))

/-- ROR's result and status (R193): the old carry enters bit 7. -/
def rorFlags (p m : Byte) : Byte × Byte :=
  let r := (m >>> 1) ||| (if getFlag .carry p then 0x80#8 else 0#8)
  (r, setZN r (putFlag .carry (m.getLsbD 0) p))

end Sys2Proof.Machine
end

