-- ==== Sys2Proof/Machine/Memory.lean ====
section
/-! DEFINITION. Sys2Proof/Machine/Memory.lean: reading and writing one byte cell, and the canonical form of a memory
(strictly rising addresses, no entry equal to what an unlisted address reads as), so that equal memories are equal
data. -/

namespace Sys2Proof.Machine

/-- What an unlisted cell reads as: 0, the spec's construction value of RAM, OAM, nametable, palette and CHR RAM (R5
`INIT_RAM`, `INIT_VRAM`, `INIT_OAM`, `INIT_PAL`, R73; assumptions 4 and 6). -/
def Memory.unlisted : Byte := 0x00#8

/-- The byte in cell `k`. -/
def Memory.read : Memory → Nat → Byte
  | [], _ => Memory.unlisted
  | (j, v) :: m, k => if j = k then v else Memory.read m k

/-- Takes cell `k` out of the list. -/
def Memory.erase : Memory → Nat → Memory
  | [], _ => []
  | (j, v) :: m, k => if j = k then Memory.erase m k else (j, v) :: Memory.erase m k

/-- Puts `v` at cell `k`, in its place. -/
def Memory.insert : Memory → Nat → Byte → Memory
  | [], k, v => [(k, v)]
  | (j, u) :: m, k, v =>
    if k < j then (k, v) :: (j, u) :: m
    else if k = j then (k, v) :: m
    else (j, u) :: Memory.insert m k v

/-- Writes `v` to cell `k`. -/
def Memory.write (m : Memory) (k : Nat) (v : Byte) : Memory :=
  if v = Memory.unlisted then Memory.erase m k else Memory.insert m k v

/-- Every address of the list is at least `lo` and rises strictly, and no entry is the unlisted byte. -/
def Memory.wfFrom : Nat → Memory → Bool
  | _, [] => true
  | lo, (k, v) :: m => decide (lo ≤ k) && decide (v ≠ Memory.unlisted) && Memory.wfFrom (k + 1) m

/-- The canonical form. -/
def Memory.wf (m : Memory) : Bool := Memory.wfFrom 0 m

/-- Every listed cell exists in a memory of `size` cells. -/
def Memory.within (size : Nat) : Memory → Bool
  | [] => true
  | (k, _) :: m => decide (k < size) && Memory.within size m

/-- The memory that holds a byte string from cell `k` on. -/
def Memory.ofBytes : Nat → List Byte → Memory
  | _, [] => []
  | k, v :: l => if v = Memory.unlisted then Memory.ofBytes (k + 1) l else (k, v) :: Memory.ofBytes (k + 1) l

end Sys2Proof.Machine
end

