-- ==== Sys2Proof/Machine/Mapper.lean ====
section
/-! DEFINITION. Sys2Proof/Machine/Mapper.lean: the four mapper engines (spec/21_cartridge_mapper.md sections 2 to 6),
and the ROM image with its checks (section 1). -/

namespace Sys2Proof.Machine

/-- `prgSize` (R66). -/
def Cartridge.prgSize (c : Cartridge) : Nat := c.prgBanks * Config.prgBankSize

/-- The size of what the engine reads CHR bytes from: CHR ROM, or 8 KB of CHR RAM when there is none (R66, R73). -/
def Cartridge.chrSize (c : Cartridge) : Nat :=
  if c.chrBanks = 0 then Config.chrBankSize else c.chrBanks * Config.chrBankSize

/-- `prgMode`, bits 3:2 of M1's `control` (R81). -/
def M1Regs.prgMode (r : M1Regs) : BitVec 2 := r.control.extractLsb' 2 2

/-- `chrMode`, bit 4 of M1's `control` (R81). -/
def M1Regs.chrMode (r : M1Regs) : Bool := r.control.getLsbD 4

/-- `mirror`, bits 1:0 of M1's `control` (R81). -/
def M1Regs.mirroring (r : M1Regs) : Mirroring :=
  match (r.control.extractLsb' 0 2).toNat with
  | 0 => .oneScreenLow
  | 1 => .oneScreenHigh
  | 2 => .vertical
  | _ => .horizontal

/-- M1's registers at installation (R78). -/
def M1Regs.powerOn : M1Regs where
  shift := 0#5
  count := 0
  control := 0x0C#5
  chrBank0 := 0#5
  chrBank1 := 0#5
  prgBank := 0#5

/-- The offset into PRG of M0 and M3 for an address in 0x8000 to 0xFFFF (R75, R90). -/
def prgIndexFixed (c : Cartridge) (a : Addr) : Nat :=
  if c.prgBanks = 1 then ((a - 0x8000#16) &&& 0x3FFF#16).toNat else (a - 0x8000#16).toNat % c.prgSize

/-- The offset into PRG of M1 for an address in 0x8000 to 0xFFFF (R82). -/
def prgIndexM1 (c : Cartridge) (r : M1Regs) (a : Addr) : Nat :=
  let b := (r.prgBank &&& 0x0F#5).toNat
  let pair := (r.prgBank &&& 0x0E#5).toNat
  let o := (a &&& 0x3FFF#16).toNat
  let low := decide (a.toNat < 0xC000)
  match r.prgMode.toNat with
  | 0 | 1 => if low then (pair * 0x4000 + o) % c.prgSize else ((pair + 1) * 0x4000 + o) % c.prgSize
  | 2 => if low then o else (b * 0x4000 + o) % c.prgSize
  | _ => if low then (b * 0x4000 + o) % c.prgSize else (c.prgBanks - 1) * 0x4000 + o

/-- The offset into PRG of M2 for an address in 0x8000 to 0xFFFF (R87). -/
def prgIndexM2 (c : Cartridge) (bank : Byte) (a : Addr) : Nat :=
  let o := (a &&& 0x3FFF#16).toNat
  if a.toNat < 0xC000 then (bank.toNat % c.prgBanks) * 0x4000 + o else (c.prgBanks - 1) * 0x4000 + o

/-- The offset into PRG that the engine translates an address in 0x8000 to 0xFFFF to. -/
def Slot.prgIndex (sl : Slot) (a : Addr) : Nat :=
  match sl.engine with
  | .m0 => prgIndexFixed sl.cart a
  | .m1 r => prgIndexM1 sl.cart r a
  | .m2 bank => prgIndexM2 sl.cart bank a
  | .m3 _ => prgIndexFixed sl.cart a

/-- `MapperCpuLoad(a)` (R71): the placeholder below 0x8000 (R72), PRG above. -/
def Slot.cpuLoad (sl : Slot) (a : Addr) : Byte :=
  if a.toNat < 0x8000 then Config.stubRead else sl.cart.prg.read (sl.prgIndex a)

/-- The serial write of M1 for an address in 0x8000 to 0xFFFF (R79, R80). -/
def M1Regs.write (r : M1Regs) (a : Addr) (v : Byte) : M1Regs :=
  if v.getLsbD 7 then { r with shift := 0#5, count := 0, control := r.control ||| 0x0C#5 }
  else
    let sh := r.shift ||| ((if v.getLsbD 0 then 1#5 else 0#5) <<< r.count)
    if r.count + 1 = 5 then
      match (a.extractLsb' 13 2).toNat with
      | 0 => { r with shift := 0#5, count := 0, control := sh }
      | 1 => { r with shift := 0#5, count := 0, chrBank0 := sh }
      | 2 => { r with shift := 0#5, count := 0, chrBank1 := sh }
      | _ => { r with shift := 0#5, count := 0, prgBank := sh }
    else { r with shift := sh, count := r.count + 1 }

/-- `MapperCpuStore(a, v)` (R71): nothing below 0x8000 (R72, R84), the engine's register write above (R76, R79, R86,
R89). -/
def Slot.cpuStore (sl : Slot) (a : Addr) (v : Byte) : Slot :=
  if a.toNat < 0x8000 then sl
  else
    match sl.engine with
    | .m0 => sl
    | .m1 r => { sl with engine := .m1 (r.write a v) }
    | .m2 _ => { sl with engine := .m2 v }
    | .m3 _ => { sl with engine := .m3 v }

/-- The cell of the CHR data that a PPU address `a` in 0x0000 to 0x1FFF names (R77, R83, R87, R90). -/
def Slot.chrIndex (sl : Slot) (a : Nat) : Nat :=
  match sl.engine with
  | .m0 => a
  | .m1 r =>
    if r.chrMode then
      if a < 0x1000 then (r.chrBank0.toNat * 0x1000 + a) % sl.cart.chrSize
      else (r.chrBank1.toNat * 0x1000 + a % 0x1000) % sl.cart.chrSize
    else ((r.chrBank0 &&& 0x1E#5).toNat * 0x1000 + a) % sl.cart.chrSize
  | .m2 _ => a
  | .m3 bank => (bank.toNat * 0x2000 + a) % sl.cart.chrSize

/-- `MapperChrLoad(a)` (R71, R73). -/
def Slot.chrLoad (sl : Slot) (a : Nat) : Byte :=
  if sl.cart.chrBanks = 0 then sl.chrRam.read (sl.chrIndex a) else sl.cart.chr.read (sl.chrIndex a)

/-- `MapperChrStore(a, v)` (R71, R73): CHR RAM is written, CHR ROM is not. -/
def Slot.chrStore (sl : Slot) (a : Nat) (v : Byte) : Slot :=
  if sl.cart.chrBanks = 0 then { sl with chrRam := sl.chrRam.write (sl.chrIndex a) v } else sl

/-- `MapperMirroring()` (R71, R77, R81, R87, R90). -/
def Slot.mirroring (sl : Slot) : Mirroring :=
  match sl.engine with
  | .m0 => sl.cart.mirroring
  | .m1 r => r.mirroring
  | .m2 _ => sl.cart.mirroring
  | .m3 _ => sl.cart.mirroring

/-! The ROM image (R65 to R70). -/

/-- The header fields of R66. -/
structure Header where
  magicOk : Bool
  prgBanks : Nat
  chrBanks : Nat
  ramBanks : Nat
  mapperId : Byte
  mirroring : Mirroring
deriving DecidableEq, Repr

/-- Why `InstallCartridge` refuses an image (R67, R70). -/
inductive ImageError where
  /-- Bytes 0 to 3 are not the magic (R67 b). -/
  | badMagic
  /-- `prgBanks = 0` (R67 c). -/
  | noPrg
  /-- Shorter than `16 + prgSize + chrSize` bytes (R67 d). -/
  | tooShort
  /-- No engine has this mapper id (R70). -/
  | unsupportedMapper (id : Byte)
deriving DecidableEq, Repr

/-- The fixed 4-byte magic (R66). -/
def imageMagic : List Byte := [0x4E#8, 0x45#8, 0x53#8, 0x1A#8]

/-- The header's length (R66). -/
def headerSize : Nat := 16

/-- Byte `k` of an image. DESIGN CHOICE (assumption 18): a byte that the image is too short to have reads as 0, so the
header of such an image is still read in full; R67 d refuses the image whatever the other fields say. -/
def imageByte (img : List Byte) (k : Nat) : Byte := img.getD k 0#8

/-- The header of an image (R66, R67 a). -/
def parseHeader (img : List Byte) : Header where
  magicOk := img.take 4 == imageMagic
  prgBanks := (imageByte img 4).toNat
  chrBanks := (imageByte img 5).toNat
  ramBanks := (imageByte img 8).toNat
  mapperId := (imageByte img 7 &&& 0xF0#8) ||| (imageByte img 6 >>> 4)
  mirroring := if (imageByte img 6).getLsbD 0 then .vertical else .horizontal

/-- The engine of a mapper id with its power-on registers (R70, R74, R78, R85, R88): `MAPPER_SET` is 0 to 3. -/
def engineOf (id : Byte) : Option Engine :=
  match id.toNat with
  | 0 => some .m0
  | 1 => some (.m1 M1Regs.powerOn)
  | 2 => some (.m2 0#8)
  | 3 => some (.m3 0#8)
  | _ => none

/-- The length an image must have at least (R67 d). -/
def Header.imageSize (h : Header) : Nat :=
  headerSize + h.prgBanks * Config.prgBankSize + h.chrBanks * Config.chrBankSize

/-- The first check of R67 and R70 that a header and an image length fail, if any. DESIGN CHOICE (assumption 18): the order
of the checks, and with it which error is reported when several fail; R67 says only that an error is. An image of the four
magic bytes alone is reported as `noPrg`, not `tooShort`. -/
def Header.error (h : Header) (length : Nat) : Option ImageError :=
  if h.magicOk = false then some .badMagic
  else if h.prgBanks = 0 then some .noPrg
  else if length < h.imageSize then some .tooShort
  else if (engineOf h.mapperId).isNone then some (.unsupportedMapper h.mapperId)
  else none

/-- The Cartridge record of an accepted image (R66, R68): PRG follows the header, CHR follows PRG, later bytes are
ignored. -/
def cartridgeOf (img : List Byte) : Cartridge :=
  let h := parseHeader img
  let prgSize := h.prgBanks * Config.prgBankSize
  let chrSize := h.chrBanks * Config.chrBankSize
  { prgBanks := h.prgBanks
    chrBanks := h.chrBanks
    ramBanks := h.ramBanks
    mapperId := h.mapperId
    mirroring := h.mirroring
    prg := Memory.ofBytes 0 ((img.drop headerSize).take prgSize)
    chr := Memory.ofBytes 0 ((img.drop (headerSize + prgSize)).take chrSize) }

/-- The cartridge slot an accepted image makes: a fresh engine in its power-on state, CHR RAM all 0 (R69, R73). -/
def freshSlot (c : Cartridge) (e : Engine) : Slot := { cart := c, engine := e, chrRam := [] }

end Sys2Proof.Machine
end

