-- ==== Sys2Proof/Machine/Ppu.lean ====
section
/-! DEFINITION. Sys2Proof/Machine/Ppu.lean: the PPU register interface, the VRAM address space and the vblank signalling
(spec/22_ppu_interface.md). A register access sees the PPU interface and, for pattern memory and mirroring, the cartridge
slot; it changes nothing else. -/

namespace Sys2Proof.Machine

/-- The mirroring the PPU uses: the active Mapper's (R69, R71); a free value with no cartridge (assumption 3). -/
def mirroringOf : Option Slot → Mirroring
  | none => Config.noCartMirroring
  | some sl => sl.mirroring

/-- The three ranges of R116. -/
inductive VramRange where
  | pattern
  | nametable
  | palette
deriving DecidableEq, Repr

/-- The range a VRAM address lies in (R116). -/
def vramRange (a : VAddr) : VramRange :=
  if a.toNat < 0x2000 then .pattern else if a.toNat < 0x3F00 then .nametable else .palette

/-- `NtIndex(a)` (R118). -/
def ntIndex (m : Mirroring) (a : VAddr) : Nat :=
  let t := a &&& 0x0FFF#14
  match m with
  | .vertical => (t &&& 0x07FF#14).toNat
  | .horizontal => (((t >>> 1) &&& 0x0400#14) ||| (t &&& 0x03FF#14)).toNat
  | .oneScreenLow => (t &&& 0x03FF#14).toNat
  | .oneScreenHigh => (0x0400#14 ||| (t &&& 0x03FF#14)).toNat

/-- `PalIndex(a)` (R119). -/
def palIndex (a : VAddr) : Nat :=
  let i := (a &&& 0x001F#14).toNat
  if 0x0F < i ∧ i % 4 = 0 then i - 16 else i

/-- Pattern memory through the Mapper (R116); a free value with no cartridge (assumption 3). -/
def patternLoad (slot : Option Slot) (a : VAddr) : Byte :=
  match slot with
  | none => Config.noCartPattern a
  | some sl => sl.chrLoad a.toNat

/-- A store to pattern memory through the Mapper (R116); with no cartridge there is no cell to write (assumption 3). -/
def patternStore (slot : Option Slot) (a : VAddr) (v : Byte) : Option Slot :=
  match slot with
  | none => none
  | some sl => some (sl.chrStore a.toNat v)

/-- `VramLoad(a)` (R117). -/
def vramLoad (slot : Option Slot) (u : Ppu) (a : VAddr) : Byte :=
  match vramRange a with
  | .pattern => patternLoad slot a
  | .nametable => u.nt.read (ntIndex (mirroringOf slot) a)
  | .palette => u.pal.read (palIndex a)

/-- `VramStore(a, v)` (R117). -/
def vramStore (slot : Option Slot) (u : Ppu) (a : VAddr) (v : Byte) : Option Slot × Ppu :=
  match vramRange a with
  | .pattern => (patternStore slot a v, u)
  | .nametable => (slot, { u with nt := u.nt.write (ntIndex (mirroringOf slot) a) v })
  | .palette => (slot, { u with pal := u.pal.write (palIndex a) v })

/-- `Inc()` (R114). -/
def Ppu.inc (u : Ppu) : VAddr := if u.ctrl.getLsbD 2 then 32#14 else 1#14

/-- Status read (R106): the byte, with the vblank flag and the toggle cleared. -/
def Ppu.readStatus (u : Ppu) : Byte × Ppu :=
  (u.status, { u with status := u.status &&& 0x7F#8, w := false })

/-- VRAM data read (R112): buffered below the palette range, direct from it on. -/
def Ppu.readData (slot : Option Slot) (u : Ppu) : Byte × Ppu :=
  let a := u.vramAddr
  if a.toNat < 0x3F00 then (u.readBuf, { u with readBuf := vramLoad slot u a, vramAddr := a + u.inc })
  else (vramLoad slot u a, { u with vramAddr := a + u.inc })

/-- `PpuRegRead(i)` (R102): registers 0, 1, 3, 5 and 6 answer the placeholder (R120). -/
def ppuRegRead (i : BitVec 3) (slot : Option Slot) (u : Ppu) : Byte × Ppu :=
  match i.toNat with
  | 2 => u.readStatus
  | 4 => (u.oam.read u.oamAddr.toNat, u)
  | 7 => u.readData slot
  | _ => (Config.stubRead, u)

/-- One byte into OAM at the current OAM address, which advances (R109, R125). -/
def Ppu.oamPut (u : Ppu) (v : Byte) : Ppu :=
  { u with oam := u.oam.write u.oamAddr.toNat v, oamAddr := u.oamAddr + 1#8 }

/-- Scroll write (R110). -/
def Ppu.writeScroll (u : Ppu) (v : Byte) : Ppu :=
  if u.w then { u with scrollY := v, w := false } else { u with scrollX := v, w := true }

/-- VRAM address write (R111): high byte first, six bits of it kept. -/
def Ppu.writeAddr (u : Ppu) (v : Byte) : Ppu :=
  if u.w then { u with vramAddr := u.vramAddr.extractLsb' 8 6 ++ v, w := false }
  else { u with vramAddr := v.extractLsb' 0 6 ++ u.vramAddr.extractLsb' 0 8, w := true }

/-- VRAM data write (R113). -/
def Ppu.writeData (slot : Option Slot) (u : Ppu) (v : Byte) : Option Slot × Ppu :=
  let r := vramStore slot u u.vramAddr v
  (r.1, { r.2 with vramAddr := u.vramAddr + u.inc })

/-- `PpuRegWrite(i, v)` (R103). -/
def ppuRegWrite (i : BitVec 3) (v : Byte) (slot : Option Slot) (u : Ppu) : Option Slot × Ppu :=
  match i.toNat with
  | 0 => (slot, { u with ctrl := v })
  | 1 => (slot, { u with mask := v })
  | 2 => (slot, u)
  | 3 => (slot, { u with oamAddr := v })
  | 4 => (slot, u.oamPut v)
  | 5 => (slot, u.writeScroll v)
  | 6 => (slot, u.writeAddr v)
  | _ => u.writeData slot v

/-- Vblank start (R129): the flag, and the NMI request gated by `ctrl[7]` (`NMI_GATE`). -/
def Ppu.vblankStart (u : Ppu) : Ppu :=
  { u with
    status := u.status ||| 0x80#8
    nmiRequest := if Config.nmiGate && !u.ctrl.getLsbD 7 then u.nmiRequest else true }

/-- Vblank end (R130). -/
def Ppu.vblankEnd (u : Ppu) : Ppu := { u with status := u.status &&& 0x7F#8, newFrame := true }

/-- The position after one PPU cycle (R128). -/
def Ppu.advance (u : Ppu) : Ppu :=
  let dot := u.dot + 1
  if dot = Config.dotsPerLine then
    let line := u.scanline + 1
    { u with dot := 0, scanline := if line = Config.linesPerFrame then 0 else line }
  else { u with dot := dot, scanline := if u.scanline = Config.linesPerFrame then 0 else u.scanline }

/-- `PpuTick()` (R128). -/
def Ppu.tick (u : Ppu) : Ppu :=
  let t := u.advance
  if t.scanline = Config.vblankSetLine ∧ t.dot = 1 then t.vblankStart
  else if t.scanline = Config.vblankClearLine ∧ t.dot = 1 then t.vblankEnd
  else t

/-- `n` PPU cycles. -/
def Ppu.ticks : Nat → Ppu → Ppu
  | 0, u => u
  | n + 1, u => Ppu.ticks n u.tick

end Sys2Proof.Machine
end

