-- ==== Sys2Proof/Machine/Ops.lean ====
section
/-! DEFINITION. Sys2Proof/Machine/Ops.lean: the Bus (spec/20_memory.md): the address decoder, `Load`, `Store`, OAM DMA and
the word load; the stack helpers (R19 to R22); and taking and leaving an exception (R271, R272). -/

namespace Sys2Proof.Machine

/-- The backing store an address names (R40). -/
inductive Region where
  /-- Work RAM, with the cell index. -/
  | ram (cell : Nat)
  /-- A PPU register, with its index. -/
  | ppu (i : BitVec 3)
  /-- The stub window. -/
  | stub
  /-- 0x4014: a stub for loads, the DMA trigger for stores (R46). -/
  | dma
  /-- The cartridge window. -/
  | cart
deriving DecidableEq, Repr

/-- The address decoder: a pure function of the address (R40, R43, R44, R45, R46, R47, R59). -/
def region (a : Addr) : Region :=
  if a.toNat ≤ 0x1FFF then .ram (a &&& 0x07FF#16).toNat
  else if a.toNat ≤ 0x3FFF then .ppu (a.extractLsb' 0 3)
  else if a = 0x4014#16 then .dma
  else if a.toNat ≤ 0x401F then .stub
  else .cart

/-- A load in the cartridge window: the Mapper's, or 0 while no cartridge is installed (R47, R292; assumption 2). -/
def cartLoad (slot : Option Slot) (a : Addr) : Byte :=
  match slot with
  | none => Config.stubRead
  | some sl => sl.cpuLoad a

/-- A store in the cartridge window: the Mapper's (R47), or nothing while no cartridge is installed. The latter is a DESIGN
CHOICE (assumption 2): D38 says only that the Bus answers 0. -/
def cartStore (slot : Option Slot) (a : Addr) (v : Byte) : Option Slot :=
  match slot with
  | none => none
  | some sl => some (sl.cpuStore a v)

/-- `Load(a)` (R41): the byte, and the state after its side effects, which only a PPU register has (R49). -/
def load (a : Addr) (s : State) : Byte × State :=
  match region a with
  | .ram cell => (s.ram.read cell, s)
  | .ppu i =>
    let r := ppuRegRead i s.slot s.ppu
    (r.1, s.setPpu r.2)
  | .stub => (Config.stubRead, s)
  | .dma => (Config.stubRead, s)
  | .cart => (cartLoad s.slot a, s)

/-- The copy of OAM DMA (R125): `n` bytes of `page` from index `i` on, each by an ordinary load. -/
def oamDmaLoop (page : Byte) : Nat → Byte → State → State
  | 0, _, s => s
  | n + 1, i, s =>
    let r := load (wordOf page i) s
    oamDmaLoop page n (i + 1#8) (r.2.setPpu (r.2.ppu.oamPut r.1))

/-- `OamDma(page)` (R125). -/
def oamDma (page : Byte) (s : State) : State :=
  let t := oamDmaLoop page 256 0#8 s
  t.setPpu { t.ppu with dmaDone := true }

/-- `Store(a, v)` (R42). -/
def store (a : Addr) (v : Byte) (s : State) : State :=
  match region a with
  | .ram cell => s.setRam (s.ram.write cell v)
  | .ppu i =>
    let r := ppuRegWrite i v s.slot s.ppu
    (s.setSlot r.1).setPpu r.2
  | .stub => s
  | .dma => oamDma v s
  | .cart => s.setSlot (cartStore s.slot a v)

/-- `LoadWord(a)` (R51): low byte first, `a + 1` wraps at 0xFFFF. -/
def loadWord (a : Addr) (s : State) : Addr × State :=
  let lo := load a s
  let hi := load (a + 1#16) lo.2
  (wordOf hi.1 lo.1, hi.2)

/-- What a load would answer, with no side effect: the byte of R280's peek, 0 in the PPU window. -/
def peek (a : Addr) (s : State) : Byte :=
  match region a with
  | .ram cell => s.ram.read cell
  | .ppu _ => Config.stubRead
  | .stub => Config.stubRead
  | .dma => Config.stubRead
  | .cart => cartLoad s.slot a

/-! The stack (R13, R19 to R22). -/

/-- The bus address of the stack cell that a stack pointer denotes: `0x0100 + SP` (R13). -/
def stackAddr (sp : Byte) : Addr := wordOf 0x01#8 sp

/-- `Push(v)` (R19): store, then decrement. -/
def push (v : Byte) (s : State) : State :=
  let t := store (stackAddr s.sp) v s
  t.setSp (t.sp - 1#8)

/-- `Pop()` (R20): increment, then load. -/
def pop (s : State) : Byte × State :=
  let t := s.setSp (s.sp + 1#8)
  load (stackAddr t.sp) t

/-- `PushWord(w)` (R21): high byte first. -/
def pushWord (w : Addr) (s : State) : State := push (loByte w) (push (hiByte w) s)

/-- `PopWord()` (R22): low byte first. -/
def popWord (s : State) : Addr × State :=
  let lo := pop s
  let hi := pop lo.2
  (wordOf hi.1 lo.1, hi.2)

/-! Taking an exception, and returning from one (R271, R272). -/

/-- Trap entry, the common shape of NMI, IRQ and BRK (R271): the return address and a copy of the status go onto the
stack, interrupts are disabled, and `PC` is loaded from the vector. -/
def enterTrap (ret : Addr) (status : Byte) (vector : Addr) (s : State) : State :=
  let t := push status (pushWord ret s)
  let u := t.setP (setFlag .interruptDisable t.p)
  let w := loadWord vector u
  w.2.setPc w.1

/-- Return from a trap (R231, R272): all of `P` with bit 5 forced to 1, then `PC`. -/
def returnFromTrap (s : State) : State :=
  let r := pop s
  let w := popWord (r.2.setP (r.1 ||| 0x20#8))
  w.2.setPc w.1

end Sys2Proof.Machine
end

