-- ==== Sys2Proof/Machine/Operands.lean ====
section
/-! DEFINITION. Sys2Proof/Machine/Operands.lean: addressing-mode resolution and the get and set protocol
(spec/40_addressing_modes.md). The operand bytes of the instruction were loaded when it was fetched (R176: the resolver
loads them first, each once), so a form carries them; the pointer loads, the operand load and the operand store are
done here, in R176's order. -/

namespace Sys2Proof.Machine

/-- The eight forms that name a memory cell (R163 to R168, R170, R171), with their operand bytes. -/
inductive Ref where
  | zeroPage (b : Byte)
  | zeroPageX (b : Byte)
  | zeroPageY (b : Byte)
  | absolute (w : Addr)
  | absoluteX (w : Addr)
  | absoluteY (w : Addr)
  | indirectX (b : Byte)
  | indirectY (b : Byte)
deriving DecidableEq, Repr

/-- The operand of an instruction that reads one (R160): the byte after the opcode (R162), or a memory cell. -/
inductive Operand where
  | immediate (v : Byte)
  | memory (r : Ref)
deriving DecidableEq, Repr

/-- `zext_16(b)` (R6): an address in page zero. -/
def zpAddr (b : Byte) : Addr := wordOf 0x00#8 b

/-- The address `w` indexed by a register, with 16-bit wraparound (R167, R168, R171). -/
def indexed (w : Addr) (r : Byte) : Addr := w + r.setWidth 16

/-- The effective address of a form (R163 to R168, R170, R171), and the state after its pointer loads. Zero-page
indexing wraps within page zero; the pointer of the indirect forms is read by the non-wrapping `LoadWord`. -/
def resolve (r : Ref) (s : State) : Addr × State :=
  match r with
  | .zeroPage b => (zpAddr b, s)
  | .zeroPageX b => (zpAddr (b + s.x), s)
  | .zeroPageY b => (zpAddr (b + s.y), s)
  | .absolute w => (w, s)
  | .absoluteX w => (indexed w s.x, s)
  | .absoluteY w => (indexed w s.y, s)
  | .indirectX b => loadWord (zpAddr (b + s.x)) s
  | .indirectY b =>
    let t := loadWord (zpAddr b) s
    (indexed t.1 s.y, t.2)

/-- `get()` (R160, R162, R176): the operand byte and the state after the loads. An immediate operand was the one
`Load(PC)` of the fetch. -/
def readOperand (o : Operand) (s : State) : Byte × State :=
  match o with
  | .immediate v => (v, s)
  | .memory r =>
    let ea := resolve r s
    load ea.1 ea.2

/-- `set(v)` for an instruction that only stores (R176: no load of the operand). -/
def storeOperand (r : Ref) (v : Byte) (s : State) : State :=
  let ea := resolve r s
  store ea.1 v ea.2

/-- `get` then `set` in accumulator mode (R172, R194): no bus access. `f` gives the result and the status from the old
status and the operand. -/
def modifyAccumulator (f : Byte → Byte → Byte × Byte) (s : State) : State :=
  let r := f s.p s.a
  (s.setA r.1).setP r.2

/-- `get` then `set` on a memory cell (R176, R194): the effective address is computed once, then one load and one store.
`f` as in `modifyAccumulator`. -/
def modifyMemory (f : Byte → Byte → Byte × Byte) (ref : Ref) (s : State) : State :=
  let ea := resolve ref s
  let m := load ea.1 ea.2
  let r := f m.2.p m.1
  (store ea.1 r.1 m.2).setP r.2

/-- An instruction that combines `A` and its operand into `A` and the status. `f` takes the status, `A` and the
operand. -/
def accumulate (f : Byte → Byte → Byte → Byte × Byte) (o : Operand) (s : State) : State :=
  let m := readOperand o s
  let r := f m.2.p m.2.a m.1
  (m.2.setA r.1).setP r.2

/-- An instruction that sets flags from a register value `r` and its operand, and writes nothing else. `f` takes the
status, the register and the operand. -/
def testOperand (f : Byte → Byte → Byte → Byte) (r : Byte) (o : Operand) (s : State) : State :=
  let m := readOperand o s
  m.2.setP (f m.2.p r m.1)

/-- The target of indirect mode (R169): the high byte's address wraps within the pointer's page. -/
def indirectTarget (ptr : Addr) (s : State) : Addr × State :=
  let lo := load ptr s
  let hi := load (wordOf (hiByte ptr) (loByte ptr + 1#8)) lo.2
  (wordOf hi.1 lo.1, hi.2)

/-- The target of relative mode from the handler-time `PC` (R173): two's complement from the next instruction. -/
def relativeTarget (d : Byte) (pc : Addr) : Addr := pc + 1#16 + d.signExtend 16

end Sys2Proof.Machine
end

