-- ==== Sys2Proof/Machine/Arithmetic.lean ====
section
/-! DEFINITION. Sys2Proof/Machine/Arithmetic.lean: the meanings of ADC, SBC (spec/41_arithmetic.md), one definition for each
row of the opcode table, at handler time: `PC` is the address after the opcode, the operand bytes are in the
instruction. -/

namespace Sys2Proof.Machine

/-- ADC (R180), immediate (R162). -/
def execAdcImm (v : Byte) (s : State) : Host.Outcome State Fault Refusal :=
  .next (accumulate adcFlags (.immediate v) s)

/-- ADC (R180), zero-page (R163). -/
def execAdcZp (b : Byte) (s : State) : Host.Outcome State Fault Refusal :=
  .next (accumulate adcFlags (.memory (.zeroPage b)) s)

/-- ADC (R180), zero-page-X (R164). -/
def execAdcZpX (b : Byte) (s : State) : Host.Outcome State Fault Refusal :=
  .next (accumulate adcFlags (.memory (.zeroPageX b)) s)

/-- ADC (R180), absolute (R166). -/
def execAdcAbs (w : Addr) (s : State) : Host.Outcome State Fault Refusal :=
  .next (accumulate adcFlags (.memory (.absolute w)) s)

/-- ADC (R180), absolute-X (R167). -/
def execAdcAbsX (w : Addr) (s : State) : Host.Outcome State Fault Refusal :=
  .next (accumulate adcFlags (.memory (.absoluteX w)) s)

/-- ADC (R180), absolute-Y (R168). -/
def execAdcAbsY (w : Addr) (s : State) : Host.Outcome State Fault Refusal :=
  .next (accumulate adcFlags (.memory (.absoluteY w)) s)

/-- ADC (R180), indirect-X (R170). -/
def execAdcIndX (b : Byte) (s : State) : Host.Outcome State Fault Refusal :=
  .next (accumulate adcFlags (.memory (.indirectX b)) s)

/-- ADC (R180), indirect-Y (R171). -/
def execAdcIndY (b : Byte) (s : State) : Host.Outcome State Fault Refusal :=
  .next (accumulate adcFlags (.memory (.indirectY b)) s)

/-- SBC (R181), immediate (R162). -/
def execSbcImm (v : Byte) (s : State) : Host.Outcome State Fault Refusal :=
  .next (accumulate sbcFlags (.immediate v) s)

/-- SBC (R181), zero-page (R163). -/
def execSbcZp (b : Byte) (s : State) : Host.Outcome State Fault Refusal :=
  .next (accumulate sbcFlags (.memory (.zeroPage b)) s)

/-- SBC (R181), zero-page-X (R164). -/
def execSbcZpX (b : Byte) (s : State) : Host.Outcome State Fault Refusal :=
  .next (accumulate sbcFlags (.memory (.zeroPageX b)) s)

/-- SBC (R181), absolute (R166). -/
def execSbcAbs (w : Addr) (s : State) : Host.Outcome State Fault Refusal :=
  .next (accumulate sbcFlags (.memory (.absolute w)) s)

/-- SBC (R181), absolute-X (R167). -/
def execSbcAbsX (w : Addr) (s : State) : Host.Outcome State Fault Refusal :=
  .next (accumulate sbcFlags (.memory (.absoluteX w)) s)

/-- SBC (R181), absolute-Y (R168). -/
def execSbcAbsY (w : Addr) (s : State) : Host.Outcome State Fault Refusal :=
  .next (accumulate sbcFlags (.memory (.absoluteY w)) s)

/-- SBC (R181), indirect-X (R170). -/
def execSbcIndX (b : Byte) (s : State) : Host.Outcome State Fault Refusal :=
  .next (accumulate sbcFlags (.memory (.indirectX b)) s)

/-- SBC (R181), indirect-Y (R171). -/
def execSbcIndY (b : Byte) (s : State) : Host.Outcome State Fault Refusal :=
  .next (accumulate sbcFlags (.memory (.indirectY b)) s)

end Sys2Proof.Machine
end

