-- ==== Sys2Proof/Machine/Branch.lean ====
section
/-! DEFINITION. Sys2Proof/Machine/Branch.lean: the meanings of BCC, BCS, BEQ, BNE, BMI, BPL, BVC, BVS (spec/47_branches.md), one definition for each
row of the opcode table, at handler time: `PC` is the address after the opcode, the operand bytes are in the
instruction. -/

namespace Sys2Proof.Machine

/-- `Branch(cond)` (R215) at handler-time `PC`, the address of the displacement byte. -/
def branch (cond : Bool) (d : Byte) (s : State) : State :=
  s.setPc (if cond then relativeTarget d s.pc else s.pc + 1#16)

/-- BCC (R216), relative (R173). -/
def execBccRel (d : Byte) (s : State) : Host.Outcome State Fault Refusal :=
  .next (branch (!getFlag .carry s.p) d s)

/-- BCS (R217), relative (R173). -/
def execBcsRel (d : Byte) (s : State) : Host.Outcome State Fault Refusal :=
  .next (branch (getFlag .carry s.p) d s)

/-- BEQ (R218), relative (R173). -/
def execBeqRel (d : Byte) (s : State) : Host.Outcome State Fault Refusal :=
  .next (branch (getFlag .zero s.p) d s)

/-- BNE (R219), relative (R173). -/
def execBneRel (d : Byte) (s : State) : Host.Outcome State Fault Refusal :=
  .next (branch (!getFlag .zero s.p) d s)

/-- BMI (R220), relative (R173). -/
def execBmiRel (d : Byte) (s : State) : Host.Outcome State Fault Refusal :=
  .next (branch (getFlag .negative s.p) d s)

/-- BPL (R221), relative (R173). -/
def execBplRel (d : Byte) (s : State) : Host.Outcome State Fault Refusal :=
  .next (branch (!getFlag .negative s.p) d s)

/-- BVC (R222), relative (R173). -/
def execBvcRel (d : Byte) (s : State) : Host.Outcome State Fault Refusal :=
  .next (branch (!getFlag .overflow s.p) d s)

/-- BVS (R223), relative (R173). -/
def execBvsRel (d : Byte) (s : State) : Host.Outcome State Fault Refusal :=
  .next (branch (getFlag .overflow s.p) d s)

end Sys2Proof.Machine
end

