-- ==== Sys2Proof/Machine/Compare.lean ====
section
/-! DEFINITION. Sys2Proof/Machine/Compare.lean: the meanings of CMP, CPX, CPY (spec/44_compare.md), one definition for each
row of the opcode table, at handler time: `PC` is the address after the opcode, the operand bytes are in the
instruction. -/

namespace Sys2Proof.Machine

/-- CMP (R195), immediate (R162). -/
def execCmpImm (v : Byte) (s : State) : Host.Outcome State Fault Refusal :=
  .next (testOperand compareFlags s.a (.immediate v) s)

/-- CMP (R195), zero-page (R163). -/
def execCmpZp (b : Byte) (s : State) : Host.Outcome State Fault Refusal :=
  .next (testOperand compareFlags s.a (.memory (.zeroPage b)) s)

/-- CMP (R195), zero-page-X (R164). -/
def execCmpZpX (b : Byte) (s : State) : Host.Outcome State Fault Refusal :=
  .next (testOperand compareFlags s.a (.memory (.zeroPageX b)) s)

/-- CMP (R195), absolute (R166). -/
def execCmpAbs (w : Addr) (s : State) : Host.Outcome State Fault Refusal :=
  .next (testOperand compareFlags s.a (.memory (.absolute w)) s)

/-- CMP (R195), absolute-X (R167). -/
def execCmpAbsX (w : Addr) (s : State) : Host.Outcome State Fault Refusal :=
  .next (testOperand compareFlags s.a (.memory (.absoluteX w)) s)

/-- CMP (R195), absolute-Y (R168). -/
def execCmpAbsY (w : Addr) (s : State) : Host.Outcome State Fault Refusal :=
  .next (testOperand compareFlags s.a (.memory (.absoluteY w)) s)

/-- CMP (R195), indirect-X (R170). -/
def execCmpIndX (b : Byte) (s : State) : Host.Outcome State Fault Refusal :=
  .next (testOperand compareFlags s.a (.memory (.indirectX b)) s)

/-- CMP (R195), indirect-Y (R171). -/
def execCmpIndY (b : Byte) (s : State) : Host.Outcome State Fault Refusal :=
  .next (testOperand compareFlags s.a (.memory (.indirectY b)) s)

/-- CPX (R196), immediate (R162). -/
def execCpxImm (v : Byte) (s : State) : Host.Outcome State Fault Refusal :=
  .next (testOperand compareFlags s.x (.immediate v) s)

/-- CPX (R196), zero-page (R163). -/
def execCpxZp (b : Byte) (s : State) : Host.Outcome State Fault Refusal :=
  .next (testOperand compareFlags s.x (.memory (.zeroPage b)) s)

/-- CPX (R196), absolute (R166). -/
def execCpxAbs (w : Addr) (s : State) : Host.Outcome State Fault Refusal :=
  .next (testOperand compareFlags s.x (.memory (.absolute w)) s)

/-- CPY (R197), immediate (R162). -/
def execCpyImm (v : Byte) (s : State) : Host.Outcome State Fault Refusal :=
  .next (testOperand compareFlags s.y (.immediate v) s)

/-- CPY (R197), zero-page (R163). -/
def execCpyZp (b : Byte) (s : State) : Host.Outcome State Fault Refusal :=
  .next (testOperand compareFlags s.y (.memory (.zeroPage b)) s)

/-- CPY (R197), absolute (R166). -/
def execCpyAbs (w : Addr) (s : State) : Host.Outcome State Fault Refusal :=
  .next (testOperand compareFlags s.y (.memory (.absolute w)) s)

end Sys2Proof.Machine
end

