-- ==== Sys2Proof/Machine/IncDec.lean ====
section
/-! DEFINITION. Sys2Proof/Machine/IncDec.lean: the meanings of INC, DEC, INX, INY, DEX, DEY (spec/45_inc_dec.md), one definition for each
row of the opcode table, at handler time: `PC` is the address after the opcode, the operand bytes are in the
instruction. -/

namespace Sys2Proof.Machine

/-- INC (R200), zero-page (R163). -/
def execIncZp (b : Byte) (s : State) : Host.Outcome State Fault Refusal :=
  .next (modifyMemory incFlags (.zeroPage b) s)

/-- INC (R200), zero-page-X (R164). -/
def execIncZpX (b : Byte) (s : State) : Host.Outcome State Fault Refusal :=
  .next (modifyMemory incFlags (.zeroPageX b) s)

/-- INC (R200), absolute (R166). -/
def execIncAbs (w : Addr) (s : State) : Host.Outcome State Fault Refusal :=
  .next (modifyMemory incFlags (.absolute w) s)

/-- INC (R200), absolute-X (R167). -/
def execIncAbsX (w : Addr) (s : State) : Host.Outcome State Fault Refusal :=
  .next (modifyMemory incFlags (.absoluteX w) s)

/-- DEC (R201), zero-page (R163). -/
def execDecZp (b : Byte) (s : State) : Host.Outcome State Fault Refusal :=
  .next (modifyMemory decFlags (.zeroPage b) s)

/-- DEC (R201), zero-page-X (R164). -/
def execDecZpX (b : Byte) (s : State) : Host.Outcome State Fault Refusal :=
  .next (modifyMemory decFlags (.zeroPageX b) s)

/-- DEC (R201), absolute (R166). -/
def execDecAbs (w : Addr) (s : State) : Host.Outcome State Fault Refusal :=
  .next (modifyMemory decFlags (.absolute w) s)

/-- DEC (R201), absolute-X (R167). -/
def execDecAbsX (w : Addr) (s : State) : Host.Outcome State Fault Refusal :=
  .next (modifyMemory decFlags (.absoluteX w) s)

/-- INX (R202). -/
def execInx (s : State) : Host.Outcome State Fault Refusal :=
  .next ((s.setX (s.x + 1#8)).setP (setZN (s.x + 1#8) s.p))

/-- INY (R203). -/
def execIny (s : State) : Host.Outcome State Fault Refusal :=
  .next ((s.setY (s.y + 1#8)).setP (setZN (s.y + 1#8) s.p))

/-- DEX (R204). -/
def execDex (s : State) : Host.Outcome State Fault Refusal :=
  .next ((s.setX (s.x - 1#8)).setP (setZN (s.x - 1#8) s.p))

/-- DEY (R205). -/
def execDey (s : State) : Host.Outcome State Fault Refusal :=
  .next ((s.setY (s.y - 1#8)).setP (setZN (s.y - 1#8) s.p))

end Sys2Proof.Machine
end

