-- ==== Sys2Proof/Machine/Jump.lean ====
section
/-! DEFINITION. Sys2Proof/Machine/Jump.lean: the meanings of JMP, JSR, RTS, BRK, RTI (spec/48_jumps_interrupt_instructions.md), one definition for each
row of the opcode table, at handler time: `PC` is the address after the opcode, the operand bytes are in the
instruction. -/

namespace Sys2Proof.Machine

/-- JMP (R225), absolute (R166). -/
def execJmpAbs (w : Addr) (s : State) : Host.Outcome State Fault Refusal :=
  .next (s.setPc w)

/-- JMP (R225), indirect (R169). -/
def execJmpInd (w : Addr) (s : State) : Host.Outcome State Fault Refusal :=
  let t := indirectTarget w s
  .next (t.2.setPc t.1)

/-- JSR (R227), absolute (R166): pushes the address of its own last byte; the target was read before the push. -/
def execJsrAbs (w : Addr) (s : State) : Host.Outcome State Fault Refusal :=
  .next ((pushWord (s.pc + 1#16) s).setPc w)

/-- RTS (R228): the popped word plus one. -/
def execRts (s : State) : Host.Outcome State Fault Refusal :=
  let t := popWord s
  .next (t.2.setPc (t.1 + 1#16))

/-- BRK (R229): the software trap; the pushed copy of the status has bit 4 set, the live bit is not written. -/
def execBrk (s : State) : Host.Outcome State Fault Refusal :=
  .next (enterTrap (s.pc + 1#16) (s.p ||| 0x10#8) Config.vecIrq s)

/-- RTI (R231). -/
def execRti (s : State) : Host.Outcome State Fault Refusal :=
  .next (returnFromTrap s)

end Sys2Proof.Machine
end

