-- ==== Sys2Proof/Machine/LoadStore.lean ====
section
/-! DEFINITION. Sys2Proof/Machine/LoadStore.lean: the meanings of LDA, LDX, LDY, STA, STX, STY (spec/46_load_store.md), one definition for each
row of the opcode table, at handler time: `PC` is the address after the opcode, the operand bytes are in the
instruction. -/

namespace Sys2Proof.Machine

/-- `X <- M; SetZN(X)` (R208). -/
def loadX (o : Operand) (s : State) : State :=
  let m := readOperand o s
  (m.2.setX m.1).setP (setZN m.1 m.2.p)

/-- `Y <- M; SetZN(Y)` (R209). -/
def loadY (o : Operand) (s : State) : State :=
  let m := readOperand o s
  (m.2.setY m.1).setP (setZN m.1 m.2.p)

/-- LDA (R207), immediate (R162). -/
def execLdaImm (v : Byte) (s : State) : Host.Outcome State Fault Refusal :=
  .next (accumulate ldaFlags (.immediate v) s)

/-- LDA (R207), zero-page (R163). -/
def execLdaZp (b : Byte) (s : State) : Host.Outcome State Fault Refusal :=
  .next (accumulate ldaFlags (.memory (.zeroPage b)) s)

/-- LDA (R207), zero-page-X (R164). -/
def execLdaZpX (b : Byte) (s : State) : Host.Outcome State Fault Refusal :=
  .next (accumulate ldaFlags (.memory (.zeroPageX b)) s)

/-- LDA (R207), absolute (R166). -/
def execLdaAbs (w : Addr) (s : State) : Host.Outcome State Fault Refusal :=
  .next (accumulate ldaFlags (.memory (.absolute w)) s)

/-- LDA (R207), absolute-X (R167). -/
def execLdaAbsX (w : Addr) (s : State) : Host.Outcome State Fault Refusal :=
  .next (accumulate ldaFlags (.memory (.absoluteX w)) s)

/-- LDA (R207), absolute-Y (R168). -/
def execLdaAbsY (w : Addr) (s : State) : Host.Outcome State Fault Refusal :=
  .next (accumulate ldaFlags (.memory (.absoluteY w)) s)

/-- LDA (R207), indirect-X (R170). -/
def execLdaIndX (b : Byte) (s : State) : Host.Outcome State Fault Refusal :=
  .next (accumulate ldaFlags (.memory (.indirectX b)) s)

/-- LDA (R207), indirect-Y (R171). -/
def execLdaIndY (b : Byte) (s : State) : Host.Outcome State Fault Refusal :=
  .next (accumulate ldaFlags (.memory (.indirectY b)) s)

/-- LDX (R208), immediate (R162). -/
def execLdxImm (v : Byte) (s : State) : Host.Outcome State Fault Refusal :=
  .next (loadX (.immediate v) s)

/-- LDX (R208), zero-page (R163). -/
def execLdxZp (b : Byte) (s : State) : Host.Outcome State Fault Refusal :=
  .next (loadX (.memory (.zeroPage b)) s)

/-- LDX (R208), zero-page-Y (R165). -/
def execLdxZpY (b : Byte) (s : State) : Host.Outcome State Fault Refusal :=
  .next (loadX (.memory (.zeroPageY b)) s)

/-- LDX (R208), absolute (R166). -/
def execLdxAbs (w : Addr) (s : State) : Host.Outcome State Fault Refusal :=
  .next (loadX (.memory (.absolute w)) s)

/-- LDX (R208), absolute-Y (R168). -/
def execLdxAbsY (w : Addr) (s : State) : Host.Outcome State Fault Refusal :=
  .next (loadX (.memory (.absoluteY w)) s)

/-- LDY (R209), immediate (R162). -/
def execLdyImm (v : Byte) (s : State) : Host.Outcome State Fault Refusal :=
  .next (loadY (.immediate v) s)

/-- LDY (R209), zero-page (R163). -/
def execLdyZp (b : Byte) (s : State) : Host.Outcome State Fault Refusal :=
  .next (loadY (.memory (.zeroPage b)) s)

/-- LDY (R209), zero-page-X (R164). -/
def execLdyZpX (b : Byte) (s : State) : Host.Outcome State Fault Refusal :=
  .next (loadY (.memory (.zeroPageX b)) s)

/-- LDY (R209), absolute (R166). -/
def execLdyAbs (w : Addr) (s : State) : Host.Outcome State Fault Refusal :=
  .next (loadY (.memory (.absolute w)) s)

/-- LDY (R209), absolute-X (R167). -/
def execLdyAbsX (w : Addr) (s : State) : Host.Outcome State Fault Refusal :=
  .next (loadY (.memory (.absoluteX w)) s)

/-- STA (R210), zero-page (R163). -/
def execStaZp (b : Byte) (s : State) : Host.Outcome State Fault Refusal :=
  .next (storeOperand (.zeroPage b) s.a s)

/-- STA (R210), zero-page-X (R164). -/
def execStaZpX (b : Byte) (s : State) : Host.Outcome State Fault Refusal :=
  .next (storeOperand (.zeroPageX b) s.a s)

/-- STA (R210), absolute (R166). -/
def execStaAbs (w : Addr) (s : State) : Host.Outcome State Fault Refusal :=
  .next (storeOperand (.absolute w) s.a s)

/-- STA (R210), absolute-X (R167). -/
def execStaAbsX (w : Addr) (s : State) : Host.Outcome State Fault Refusal :=
  .next (storeOperand (.absoluteX w) s.a s)

/-- STA (R210), absolute-Y (R168). -/
def execStaAbsY (w : Addr) (s : State) : Host.Outcome State Fault Refusal :=
  .next (storeOperand (.absoluteY w) s.a s)

/-- STA (R210), indirect-X (R170). -/
def execStaIndX (b : Byte) (s : State) : Host.Outcome State Fault Refusal :=
  .next (storeOperand (.indirectX b) s.a s)

/-- STA (R210), indirect-Y (R171). -/
def execStaIndY (b : Byte) (s : State) : Host.Outcome State Fault Refusal :=
  .next (storeOperand (.indirectY b) s.a s)

/-- STX (R211), zero-page (R163). -/
def execStxZp (b : Byte) (s : State) : Host.Outcome State Fault Refusal :=
  .next (storeOperand (.zeroPage b) s.x s)

/-- STX (R211), zero-page-Y (R165). -/
def execStxZpY (b : Byte) (s : State) : Host.Outcome State Fault Refusal :=
  .next (storeOperand (.zeroPageY b) s.x s)

/-- STX (R211), absolute (R166). -/
def execStxAbs (w : Addr) (s : State) : Host.Outcome State Fault Refusal :=
  .next (storeOperand (.absolute w) s.x s)

/-- STY (R212), zero-page (R163). -/
def execStyZp (b : Byte) (s : State) : Host.Outcome State Fault Refusal :=
  .next (storeOperand (.zeroPage b) s.y s)

/-- STY (R212), zero-page-X (R164). -/
def execStyZpX (b : Byte) (s : State) : Host.Outcome State Fault Refusal :=
  .next (storeOperand (.zeroPageX b) s.y s)

/-- STY (R212), absolute (R166). -/
def execStyAbs (w : Addr) (s : State) : Host.Outcome State Fault Refusal :=
  .next (storeOperand (.absolute w) s.y s)

end Sys2Proof.Machine
end

