-- ==== Sys2Proof/Machine/Logical.lean ====
section
/-! DEFINITION. Sys2Proof/Machine/Logical.lean: the meanings of AND, ORA, EOR, BIT (spec/42_logical.md), one definition for each
row of the opcode table, at handler time: `PC` is the address after the opcode, the operand bytes are in the
instruction. -/

namespace Sys2Proof.Machine

/-- AND (R185), immediate (R162). -/
def execAndImm (v : Byte) (s : State) : Host.Outcome State Fault Refusal :=
  .next (accumulate andFlags (.immediate v) s)

/-- AND (R185), zero-page (R163). -/
def execAndZp (b : Byte) (s : State) : Host.Outcome State Fault Refusal :=
  .next (accumulate andFlags (.memory (.zeroPage b)) s)

/-- AND (R185), zero-page-X (R164). -/
def execAndZpX (b : Byte) (s : State) : Host.Outcome State Fault Refusal :=
  .next (accumulate andFlags (.memory (.zeroPageX b)) s)

/-- AND (R185), absolute (R166). -/
def execAndAbs (w : Addr) (s : State) : Host.Outcome State Fault Refusal :=
  .next (accumulate andFlags (.memory (.absolute w)) s)

/-- AND (R185), absolute-X (R167). -/
def execAndAbsX (w : Addr) (s : State) : Host.Outcome State Fault Refusal :=
  .next (accumulate andFlags (.memory (.absoluteX w)) s)

/-- AND (R185), absolute-Y (R168). -/
def execAndAbsY (w : Addr) (s : State) : Host.Outcome State Fault Refusal :=
  .next (accumulate andFlags (.memory (.absoluteY w)) s)

/-- AND (R185), indirect-X (R170). -/
def execAndIndX (b : Byte) (s : State) : Host.Outcome State Fault Refusal :=
  .next (accumulate andFlags (.memory (.indirectX b)) s)

/-- AND (R185), indirect-Y (R171). -/
def execAndIndY (b : Byte) (s : State) : Host.Outcome State Fault Refusal :=
  .next (accumulate andFlags (.memory (.indirectY b)) s)

/-- ORA (R186), immediate (R162). -/
def execOraImm (v : Byte) (s : State) : Host.Outcome State Fault Refusal :=
  .next (accumulate oraFlags (.immediate v) s)

/-- ORA (R186), zero-page (R163). -/
def execOraZp (b : Byte) (s : State) : Host.Outcome State Fault Refusal :=
  .next (accumulate oraFlags (.memory (.zeroPage b)) s)

/-- ORA (R186), zero-page-X (R164). -/
def execOraZpX (b : Byte) (s : State) : Host.Outcome State Fault Refusal :=
  .next (accumulate oraFlags (.memory (.zeroPageX b)) s)

/-- ORA (R186), absolute (R166). -/
def execOraAbs (w : Addr) (s : State) : Host.Outcome State Fault Refusal :=
  .next (accumulate oraFlags (.memory (.absolute w)) s)

/-- ORA (R186), absolute-X (R167). -/
def execOraAbsX (w : Addr) (s : State) : Host.Outcome State Fault Refusal :=
  .next (accumulate oraFlags (.memory (.absoluteX w)) s)

/-- ORA (R186), absolute-Y (R168). -/
def execOraAbsY (w : Addr) (s : State) : Host.Outcome State Fault Refusal :=
  .next (accumulate oraFlags (.memory (.absoluteY w)) s)

/-- ORA (R186), indirect-X (R170). -/
def execOraIndX (b : Byte) (s : State) : Host.Outcome State Fault Refusal :=
  .next (accumulate oraFlags (.memory (.indirectX b)) s)

/-- ORA (R186), indirect-Y (R171). -/
def execOraIndY (b : Byte) (s : State) : Host.Outcome State Fault Refusal :=
  .next (accumulate oraFlags (.memory (.indirectY b)) s)

/-- EOR (R187), immediate (R162). -/
def execEorImm (v : Byte) (s : State) : Host.Outcome State Fault Refusal :=
  .next (accumulate eorFlags (.immediate v) s)

/-- EOR (R187), zero-page (R163). -/
def execEorZp (b : Byte) (s : State) : Host.Outcome State Fault Refusal :=
  .next (accumulate eorFlags (.memory (.zeroPage b)) s)

/-- EOR (R187), zero-page-X (R164). -/
def execEorZpX (b : Byte) (s : State) : Host.Outcome State Fault Refusal :=
  .next (accumulate eorFlags (.memory (.zeroPageX b)) s)

/-- EOR (R187), absolute (R166). -/
def execEorAbs (w : Addr) (s : State) : Host.Outcome State Fault Refusal :=
  .next (accumulate eorFlags (.memory (.absolute w)) s)

/-- EOR (R187), absolute-X (R167). -/
def execEorAbsX (w : Addr) (s : State) : Host.Outcome State Fault Refusal :=
  .next (accumulate eorFlags (.memory (.absoluteX w)) s)

/-- EOR (R187), absolute-Y (R168). -/
def execEorAbsY (w : Addr) (s : State) : Host.Outcome State Fault Refusal :=
  .next (accumulate eorFlags (.memory (.absoluteY w)) s)

/-- EOR (R187), indirect-X (R170). -/
def execEorIndX (b : Byte) (s : State) : Host.Outcome State Fault Refusal :=
  .next (accumulate eorFlags (.memory (.indirectX b)) s)

/-- EOR (R187), indirect-Y (R171). -/
def execEorIndY (b : Byte) (s : State) : Host.Outcome State Fault Refusal :=
  .next (accumulate eorFlags (.memory (.indirectY b)) s)

/-- BIT (R188), zero-page (R163). -/
def execBitZp (b : Byte) (s : State) : Host.Outcome State Fault Refusal :=
  .next (testOperand bitFlags s.a (.memory (.zeroPage b)) s)

/-- BIT (R188), absolute (R166). -/
def execBitAbs (w : Addr) (s : State) : Host.Outcome State Fault Refusal :=
  .next (testOperand bitFlags s.a (.memory (.absolute w)) s)

end Sys2Proof.Machine
end

