-- ==== Sys2Proof/Machine/Shift.lean ====
section
/-! DEFINITION. Sys2Proof/Machine/Shift.lean: the meanings of ASL, LSR, ROL, ROR (spec/43_shifts_rotates.md), one definition for each
row of the opcode table, at handler time: `PC` is the address after the opcode, the operand bytes are in the
instruction. -/

namespace Sys2Proof.Machine

/-- ASL (R190), accumulator (R172). -/
def execAslAcc (s : State) : Host.Outcome State Fault Refusal :=
  .next (modifyAccumulator aslFlags s)

/-- ASL (R190), zero-page (R163). -/
def execAslZp (b : Byte) (s : State) : Host.Outcome State Fault Refusal :=
  .next (modifyMemory aslFlags (.zeroPage b) s)

/-- ASL (R190), zero-page-X (R164). -/
def execAslZpX (b : Byte) (s : State) : Host.Outcome State Fault Refusal :=
  .next (modifyMemory aslFlags (.zeroPageX b) s)

/-- ASL (R190), absolute (R166). -/
def execAslAbs (w : Addr) (s : State) : Host.Outcome State Fault Refusal :=
  .next (modifyMemory aslFlags (.absolute w) s)

/-- ASL (R190), absolute-X (R167). -/
def execAslAbsX (w : Addr) (s : State) : Host.Outcome State Fault Refusal :=
  .next (modifyMemory aslFlags (.absoluteX w) s)

/-- LSR (R191), accumulator (R172). -/
def execLsrAcc (s : State) : Host.Outcome State Fault Refusal :=
  .next (modifyAccumulator lsrFlags s)

/-- LSR (R191), zero-page (R163). -/
def execLsrZp (b : Byte) (s : State) : Host.Outcome State Fault Refusal :=
  .next (modifyMemory lsrFlags (.zeroPage b) s)

/-- LSR (R191), zero-page-X (R164). -/
def execLsrZpX (b : Byte) (s : State) : Host.Outcome State Fault Refusal :=
  .next (modifyMemory lsrFlags (.zeroPageX b) s)

/-- LSR (R191), absolute (R166). -/
def execLsrAbs (w : Addr) (s : State) : Host.Outcome State Fault Refusal :=
  .next (modifyMemory lsrFlags (.absolute w) s)

/-- LSR (R191), absolute-X (R167). -/
def execLsrAbsX (w : Addr) (s : State) : Host.Outcome State Fault Refusal :=
  .next (modifyMemory lsrFlags (.absoluteX w) s)

/-- ROL (R192), accumulator (R172). -/
def execRolAcc (s : State) : Host.Outcome State Fault Refusal :=
  .next (modifyAccumulator rolFlags s)

/-- ROL (R192), zero-page (R163). -/
def execRolZp (b : Byte) (s : State) : Host.Outcome State Fault Refusal :=
  .next (modifyMemory rolFlags (.zeroPage b) s)

/-- ROL (R192), zero-page-X (R164). -/
def execRolZpX (b : Byte) (s : State) : Host.Outcome State Fault Refusal :=
  .next (modifyMemory rolFlags (.zeroPageX b) s)

/-- ROL (R192), absolute (R166). -/
def execRolAbs (w : Addr) (s : State) : Host.Outcome State Fault Refusal :=
  .next (modifyMemory rolFlags (.absolute w) s)

/-- ROL (R192), absolute-X (R167). -/
def execRolAbsX (w : Addr) (s : State) : Host.Outcome State Fault Refusal :=
  .next (modifyMemory rolFlags (.absoluteX w) s)

/-- ROR (R193), accumulator (R172). -/
def execRorAcc (s : State) : Host.Outcome State Fault Refusal :=
  .next (modifyAccumulator rorFlags s)

/-- ROR (R193), zero-page (R163). -/
def execRorZp (b : Byte) (s : State) : Host.Outcome State Fault Refusal :=
  .next (modifyMemory rorFlags (.zeroPage b) s)

/-- ROR (R193), zero-page-X (R164). -/
def execRorZpX (b : Byte) (s : State) : Host.Outcome State Fault Refusal :=
  .next (modifyMemory rorFlags (.zeroPageX b) s)

/-- ROR (R193), absolute (R166). -/
def execRorAbs (w : Addr) (s : State) : Host.Outcome State Fault Refusal :=
  .next (modifyMemory rorFlags (.absolute w) s)

/-- ROR (R193), absolute-X (R167). -/
def execRorAbsX (w : Addr) (s : State) : Host.Outcome State Fault Refusal :=
  .next (modifyMemory rorFlags (.absoluteX w) s)

end Sys2Proof.Machine
end

