-- ==== Sys2Proof/Machine/StackTransferFlag.lean ====
section
/-! DEFINITION. Sys2Proof/Machine/StackTransferFlag.lean: the meanings of PHA, PHP, PLA, PLP, TAX, TAY, TSX, TXA, TXS, TYA, CLC, CLD, CLI, CLV, SEC, SED, SEI, NOP (spec/49_stack_transfer_flag_nop.md), one definition for each
row of the opcode table, at handler time: `PC` is the address after the opcode, the operand bytes are in the
instruction. -/

namespace Sys2Proof.Machine

/-- PHA (R232). -/
def execPha (s : State) : Host.Outcome State Fault Refusal :=
  .next (push s.a s)

/-- PHP (R233): the pushed copy has bits 4 and 5 set. -/
def execPhp (s : State) : Host.Outcome State Fault Refusal :=
  .next (push (s.p ||| 0x30#8) s)

/-- PLA (R234). -/
def execPla (s : State) : Host.Outcome State Fault Refusal :=
  let t := pop s
  .next ((t.2.setA t.1).setP (setZN t.1 t.2.p))

/-- PLP (R235): bit 5 forced to 1. -/
def execPlp (s : State) : Host.Outcome State Fault Refusal :=
  let t := pop s
  .next (t.2.setP (t.1 ||| 0x20#8))

/-- TAX (R236). -/
def execTax (s : State) : Host.Outcome State Fault Refusal :=
  .next ((s.setX s.a).setP (setZN s.a s.p))

/-- TAY (R237). -/
def execTay (s : State) : Host.Outcome State Fault Refusal :=
  .next ((s.setY s.a).setP (setZN s.a s.p))

/-- TSX (R238). -/
def execTsx (s : State) : Host.Outcome State Fault Refusal :=
  .next ((s.setX s.sp).setP (setZN s.sp s.p))

/-- TXA (R239). -/
def execTxa (s : State) : Host.Outcome State Fault Refusal :=
  .next ((s.setA s.x).setP (setZN s.x s.p))

/-- TXS (R240): no flag. -/
def execTxs (s : State) : Host.Outcome State Fault Refusal :=
  .next (s.setSp s.x)

/-- TYA (R241). -/
def execTya (s : State) : Host.Outcome State Fault Refusal :=
  .next ((s.setA s.y).setP (setZN s.y s.p))

/-- CLC (R242). -/
def execClc (s : State) : Host.Outcome State Fault Refusal :=
  .next (s.setP (clearFlag .carry s.p))

/-- CLD (R243). -/
def execCld (s : State) : Host.Outcome State Fault Refusal :=
  .next (s.setP (clearFlag .decimal s.p))

/-- CLI (R244). -/
def execCli (s : State) : Host.Outcome State Fault Refusal :=
  .next (s.setP (clearFlag .interruptDisable s.p))

/-- CLV (R245). -/
def execClv (s : State) : Host.Outcome State Fault Refusal :=
  .next (s.setP (clearFlag .overflow s.p))

/-- SEC (R246). -/
def execSec (s : State) : Host.Outcome State Fault Refusal :=
  .next (s.setP (setFlag .carry s.p))

/-- SED (R247). -/
def execSed (s : State) : Host.Outcome State Fault Refusal :=
  .next (s.setP (setFlag .decimal s.p))

/-- SEI (R248). -/
def execSei (s : State) : Host.Outcome State Fault Refusal :=
  .next (s.setP (setFlag .interruptDisable s.p))

/-- NOP (R249): nothing. -/
def execNop (s : State) : Host.Outcome State Fault Refusal :=
  .next s

end Sys2Proof.Machine
end

