-- ==== Sys2Proof/Machine/Cycle.lean ====
section
/-! DEFINITION. Sys2Proof/Machine/Cycle.lean: the instruction cycle of R296 (fetch, handler, `PC` advance, cycle count),
the fatal dispatch of R260, and placing an instruction where the next fetch reads it. -/

namespace Sys2Proof.Machine

/-- The opcode fetch (R296): one load, with its side effects, then `PC` advances by one. -/
def fetchOpcode (s : State) : Byte × State :=
  let r := load s.pc s
  (r.1, r.2.setPc (s.pc + 1#16))

/-- The operand loads of a mode at handler-time `PC` (R141, R176): as many as the mode has operand bytes, low byte
first; `PC` does not move. A byte the mode does not have is given as 0. -/
def fetchOperands (n : Nat) (s : State) : (Byte × Byte) × State :=
  match n with
  | 0 => ((0#8, 0#8), s)
  | 1 =>
    let r := load s.pc s
    ((r.1, 0#8), r.2)
  | _ + 2 =>
    let r := load s.pc s
    let q := load (s.pc + 1#16) r.2
    ((r.1, q.1), q.2)

/-- The state in which an entry's handler runs, from the state after the opcode fetch. -/
def handlerState (e : OpEntry) (s : State) : State := (fetchOperands e.mode.operandBytes s).2

/-- The instruction that an entry makes of the operand bytes at `PC`, from the state after the opcode fetch. -/
def fetchedInstr (e : OpEntry) (s : State) : Instr :=
  let b := (fetchOperands e.mode.operandBytes s).1
  e.build b.1 b.2

/-- What `step()` does after the handler (R296): `PC` moves over the operand bytes if the entry tracks it, and the base
cost is added. -/
def finish (e : OpEntry) (s : State) : State :=
  (s.setPc (if e.trackPc then s.pc + BitVec.ofNat 16 (e.length - 1) else s.pc)).setCyc (s.cyc + e.cycles)

/-- `raise Fatal(op, P0)` (R260): the CPU enters Halted; nothing else changes. -/
def raiseFatal (op : Byte) (addr : Addr) (s : State) : State := s.setHalted (some (op, addr))

/-- What a call of `step()` leaves (R296). -/
inductive CpuStep where
  /-- The instruction completed; the number of cycles `step()` returns. -/
  | done (s : State) (cycles : Nat)
  /-- The fatal dispatch error (R260): the Halted state, and no cycle count. -/
  | fatal (s : State) (opcode : Byte) (addr : Addr)
  /-- The meaning ended in a fault (no meaning of this model does). -/
  | faulted (f : Fault)
  /-- The meaning was refused (no meaning of this model is). -/
  | refused (r : Refusal)
deriving DecidableEq, Repr

/-- `step()` (R296) on a CPU that is not halted. -/
def cpuStep (s : State) : CpuStep :=
  let f := fetchOpcode s
  match opEntry f.1 with
  | none => .fatal (raiseFatal f.1 s.pc f.2) f.1 s.pc
  | some e =>
    match exec (fetchedInstr e f.2) (handlerState e f.2) with
    | .next t => .done (finish e t) e.cycles
    | .fault r => .faulted r
    | .refused r => .refused r

/-- One step: a halted CPU does nothing ("a model returns the state unchanged", R296, R23); without a cartridge the
step is refused (R48, R292; assumption 2); the fatal dispatch error is a fault (R260; assumption 7). -/
def stepOutcome (s : State) : Host.Outcome State Fault Refusal :=
  match s.halted, s.slot with
  | some _, _ => .next s
  | none, none => .refused .noCartridge
  | none, some _ =>
    match cpuStep s with
    | .done t _ => .next t
    | .fatal _ op addr => .fault (.fatalDispatch op addr)
    | .faulted f => .fault f
    | .refused r => .refused r

/-! Placing an instruction at the next fetch (assumption 9). -/

/-- A blank cartridge: M0, two PRG banks of zeros, CHR RAM. -/
def blankSlot : Slot :=
  freshSlot
    { prgBanks := 2, chrBanks := 0, ramBanks := 0, mapperId := 0#8, mirroring := .horizontal, prg := [], chr := [] } .m0

/-- A cell at this address can hold an instruction byte: work RAM, or PRG. -/
def holdsCode (a : Addr) : Bool := decide (a.toNat ≤ 0x1FFF) || decide (0x8000 ≤ a.toNat)

/-- Puts a byte where a load of address `a` reads it: work RAM, or the PRG byte the engine maps there. -/
def placeByte (a : Addr) (v : Byte) (s : State) : State :=
  match region a, s.slot with
  | .ram cell, _ => s.setRam (s.ram.write cell v)
  | .cart, some sl =>
    s.setSlot (some { sl with cart := { sl.cart with prg := sl.cart.prg.write (sl.prgIndex a) v } })
  | _, _ => s

/-- The state made ready for a fetch: not halted, a cartridge installed, and `PC` where memory can hold three bytes of
code (0x0000 if it stood in a window that holds none). -/
def readyToFetch (s : State) : State :=
  let t := (s.setHalted none).setSlot (some (s.slot.getD blankSlot))
  if holdsCode t.pc && holdsCode (t.pc + 1#16) && holdsCode (t.pc + 2#16) then t else t.setPc 0#16

/-- Three instruction bytes placed at the next fetch. -/
def placeInstr (s : State) (nbits w : Nat) : State :=
  let t := readyToFetch s
  match bytesOfWord nbits w with
  | [b0, b1, b2] => placeByte (t.pc + 2#16) b2 (placeByte (t.pc + 1#16) b1 (placeByte t.pc b0 t))
  | _ => t

end Sys2Proof.Machine
end

