-- ==== Sys2Proof/Machine/Step.lean ====
section
/-! DEFINITION. Sys2Proof/Machine/Step.lean: the step of the machine, which is the CPU's `step()` (R296; assumption 1). -/

namespace Sys2Proof.Machine

/-- One whole instruction (R296, R297). -/
def step (s : State) : Host.Outcome State Fault Refusal := stepOutcome s

/-- The state with an instruction of the opcode table placed where `step` fetches next (assumption 9). -/
def State.withFetchWord (s : State) (nbits w : Nat) : State := placeInstr s nbits w

end Sys2Proof.Machine
end

