-- ==== Sys2Proof/Machine/Forms.lean ====
section
/-! DEFINITION. Sys2Proof/Machine/Forms.lean: the mnemonic and the addressing form of each instruction (the first two
columns of R146), for statements that speak of an instruction in all its modes at once. -/

namespace Sys2Proof.Machine

/-- An addressing mode with its operand (R161 to R173). The target of JMP and JSR in absolute mode is the form's
address, not dereferenced (R174). -/
inductive Form where
  | implied
  | accumulator
  | immediate (v : Byte)
  | memory (r : Ref)
  | indirect (w : Addr)
  | relative (d : Byte)
deriving DecidableEq, Repr

/-- The mode of a memory form. -/
def Ref.mode : Ref → Mode
  | .zeroPage _ => .zeroPage
  | .zeroPageX _ => .zeroPageX
  | .zeroPageY _ => .zeroPageY
  | .absolute _ => .absolute
  | .absoluteX _ => .absoluteX
  | .absoluteY _ => .absoluteY
  | .indirectX _ => .indirectX
  | .indirectY _ => .indirectY

/-- The mode of a form. -/
def Form.mode : Form → Mode
  | .implied => .implied
  | .accumulator => .accumulator
  | .immediate _ => .immediate
  | .memory r => r.mode
  | .indirect _ => .indirect
  | .relative _ => .relative

/-- The operand of a form from which an instruction reads a byte, if it is one (R160). -/
def Form.operand : Form → Option Operand
  | .implied => none
  | .accumulator => none
  | .immediate v => some (.immediate v)
  | .memory r => some (.memory r)
  | .indirect _ => none
  | .relative _ => none

end Sys2Proof.Machine

namespace Sys2Proof

/-- The mnemonic of an instruction (R144). -/
def Instr.mnemonic : Instr → Mnemonic
  | .adcImm _ => .adc
  | .adcZp _ => .adc
  | .adcZpX _ => .adc
  | .adcAbs _ => .adc
  | .adcAbsX _ => .adc
  | .adcAbsY _ => .adc
  | .adcIndX _ => .adc
  | .adcIndY _ => .adc
  | .sbcImm _ => .sbc
  | .sbcZp _ => .sbc
  | .sbcZpX _ => .sbc
  | .sbcAbs _ => .sbc
  | .sbcAbsX _ => .sbc
  | .sbcAbsY _ => .sbc
  | .sbcIndX _ => .sbc
  | .sbcIndY _ => .sbc
  | .andImm _ => .and
  | .andZp _ => .and
  | .andZpX _ => .and
  | .andAbs _ => .and
  | .andAbsX _ => .and
  | .andAbsY _ => .and
  | .andIndX _ => .and
  | .andIndY _ => .and
  | .oraImm _ => .ora
  | .oraZp _ => .ora
  | .oraZpX _ => .ora
  | .oraAbs _ => .ora
  | .oraAbsX _ => .ora
  | .oraAbsY _ => .ora
  | .oraIndX _ => .ora
  | .oraIndY _ => .ora
  | .eorImm _ => .eor
  | .eorZp _ => .eor
  | .eorZpX _ => .eor
  | .eorAbs _ => .eor
  | .eorAbsX _ => .eor
  | .eorAbsY _ => .eor
  | .eorIndX _ => .eor
  | .eorIndY _ => .eor
  | .bitZp _ => .bit
  | .bitAbs _ => .bit
  | .aslAcc => .asl
  | .aslZp _ => .asl
  | .aslZpX _ => .asl
  | .aslAbs _ => .asl
  | .aslAbsX _ => .asl
  | .lsrAcc => .lsr
  | .lsrZp _ => .lsr
  | .lsrZpX _ => .lsr
  | .lsrAbs _ => .lsr
  | .lsrAbsX _ => .lsr
  | .rolAcc => .rol
  | .rolZp _ => .rol
  | .rolZpX _ => .rol
  | .rolAbs _ => .rol
  | .rolAbsX _ => .rol
  | .rorAcc => .ror
  | .rorZp _ => .ror
  | .rorZpX _ => .ror
  | .rorAbs _ => .ror
  | .rorAbsX _ => .ror
  | .cmpImm _ => .cmp
  | .cmpZp _ => .cmp
  | .cmpZpX _ => .cmp
  | .cmpAbs _ => .cmp
  | .cmpAbsX _ => .cmp
  | .cmpAbsY _ => .cmp
  | .cmpIndX _ => .cmp
  | .cmpIndY _ => .cmp
  | .cpxImm _ => .cpx
  | .cpxZp _ => .cpx
  | .cpxAbs _ => .cpx
  | .cpyImm _ => .cpy
  | .cpyZp _ => .cpy
  | .cpyAbs _ => .cpy
  | .incZp _ => .inc
  | .incZpX _ => .inc
  | .incAbs _ => .inc
  | .incAbsX _ => .inc
  | .decZp _ => .dec
  | .decZpX _ => .dec
  | .decAbs _ => .dec
  | .decAbsX _ => .dec
  | .inx => .inx
  | .iny => .iny
  | .dex => .dex
  | .dey => .dey
  | .ldaImm _ => .lda
  | .ldaZp _ => .lda
  | .ldaZpX _ => .lda
  | .ldaAbs _ => .lda
  | .ldaAbsX _ => .lda
  | .ldaAbsY _ => .lda
  | .ldaIndX _ => .lda
  | .ldaIndY _ => .lda
  | .ldxImm _ => .ldx
  | .ldxZp _ => .ldx
  | .ldxZpY _ => .ldx
  | .ldxAbs _ => .ldx
  | .ldxAbsY _ => .ldx
  | .ldyImm _ => .ldy
  | .ldyZp _ => .ldy
  | .ldyZpX _ => .ldy
  | .ldyAbs _ => .ldy
  | .ldyAbsX _ => .ldy
  | .staZp _ => .sta
  | .staZpX _ => .sta
  | .staAbs _ => .sta
  | .staAbsX _ => .sta
  | .staAbsY _ => .sta
  | .staIndX _ => .sta
  | .staIndY _ => .sta
  | .stxZp _ => .stx
  | .stxZpY _ => .stx
  | .stxAbs _ => .stx
  | .styZp _ => .sty
  | .styZpX _ => .sty
  | .styAbs _ => .sty
  | .bccRel _ => .bcc
  | .bcsRel _ => .bcs
  | .beqRel _ => .beq
  | .bneRel _ => .bne
  | .bmiRel _ => .bmi
  | .bplRel _ => .bpl
  | .bvcRel _ => .bvc
  | .bvsRel _ => .bvs
  | .jmpAbs _ => .jmp
  | .jmpInd _ => .jmp
  | .jsrAbs _ => .jsr
  | .rts => .rts
  | .brk => .brk
  | .rti => .rti
  | .pha => .pha
  | .php => .php
  | .pla => .pla
  | .plp => .plp
  | .tax => .tax
  | .tay => .tay
  | .tsx => .tsx
  | .txa => .txa
  | .txs => .txs
  | .tya => .tya
  | .clc => .clc
  | .cld => .cld
  | .cli => .cli
  | .clv => .clv
  | .sec => .sec
  | .sed => .sed
  | .sei => .sei
  | .nop => .nop

/-- The addressing form of an instruction (R144). -/
def Instr.form : Instr → Machine.Form
  | .adcImm v => .immediate v
  | .adcZp b => .memory (.zeroPage b)
  | .adcZpX b => .memory (.zeroPageX b)
  | .adcAbs w => .memory (.absolute w)
  | .adcAbsX w => .memory (.absoluteX w)
  | .adcAbsY w => .memory (.absoluteY w)
  | .adcIndX b => .memory (.indirectX b)
  | .adcIndY b => .memory (.indirectY b)
  | .sbcImm v => .immediate v
  | .sbcZp b => .memory (.zeroPage b)
  | .sbcZpX b => .memory (.zeroPageX b)
  | .sbcAbs w => .memory (.absolute w)
  | .sbcAbsX w => .memory (.absoluteX w)
  | .sbcAbsY w => .memory (.absoluteY w)
  | .sbcIndX b => .memory (.indirectX b)
  | .sbcIndY b => .memory (.indirectY b)
  | .andImm v => .immediate v
  | .andZp b => .memory (.zeroPage b)
  | .andZpX b => .memory (.zeroPageX b)
  | .andAbs w => .memory (.absolute w)
  | .andAbsX w => .memory (.absoluteX w)
  | .andAbsY w => .memory (.absoluteY w)
  | .andIndX b => .memory (.indirectX b)
  | .andIndY b => .memory (.indirectY b)
  | .oraImm v => .immediate v
  | .oraZp b => .memory (.zeroPage b)
  | .oraZpX b => .memory (.zeroPageX b)
  | .oraAbs w => .memory (.absolute w)
  | .oraAbsX w => .memory (.absoluteX w)
  | .oraAbsY w => .memory (.absoluteY w)
  | .oraIndX b => .memory (.indirectX b)
  | .oraIndY b => .memory (.indirectY b)
  | .eorImm v => .immediate v
  | .eorZp b => .memory (.zeroPage b)
  | .eorZpX b => .memory (.zeroPageX b)
  | .eorAbs w => .memory (.absolute w)
  | .eorAbsX w => .memory (.absoluteX w)
  | .eorAbsY w => .memory (.absoluteY w)
  | .eorIndX b => .memory (.indirectX b)
  | .eorIndY b => .memory (.indirectY b)
  | .bitZp b => .memory (.zeroPage b)
  | .bitAbs w => .memory (.absolute w)
  | .aslAcc => .accumulator
  | .aslZp b => .memory (.zeroPage b)
  | .aslZpX b => .memory (.zeroPageX b)
  | .aslAbs w => .memory (.absolute w)
  | .aslAbsX w => .memory (.absoluteX w)
  | .lsrAcc => .accumulator
  | .lsrZp b => .memory (.zeroPage b)
  | .lsrZpX b => .memory (.zeroPageX b)
  | .lsrAbs w => .memory (.absolute w)
  | .lsrAbsX w => .memory (.absoluteX w)
  | .rolAcc => .accumulator
  | .rolZp b => .memory (.zeroPage b)
  | .rolZpX b => .memory (.zeroPageX b)
  | .rolAbs w => .memory (.absolute w)
  | .rolAbsX w => .memory (.absoluteX w)
  | .rorAcc => .accumulator
  | .rorZp b => .memory (.zeroPage b)
  | .rorZpX b => .memory (.zeroPageX b)
  | .rorAbs w => .memory (.absolute w)
  | .rorAbsX w => .memory (.absoluteX w)
  | .cmpImm v => .immediate v
  | .cmpZp b => .memory (.zeroPage b)
  | .cmpZpX b => .memory (.zeroPageX b)
  | .cmpAbs w => .memory (.absolute w)
  | .cmpAbsX w => .memory (.absoluteX w)
  | .cmpAbsY w => .memory (.absoluteY w)
  | .cmpIndX b => .memory (.indirectX b)
  | .cmpIndY b => .memory (.indirectY b)
  | .cpxImm v => .immediate v
  | .cpxZp b => .memory (.zeroPage b)
  | .cpxAbs w => .memory (.absolute w)
  | .cpyImm v => .immediate v
  | .cpyZp b => .memory (.zeroPage b)
  | .cpyAbs w => .memory (.absolute w)
  | .incZp b => .memory (.zeroPage b)
  | .incZpX b => .memory (.zeroPageX b)
  | .incAbs w => .memory (.absolute w)
  | .incAbsX w => .memory (.absoluteX w)
  | .decZp b => .memory (.zeroPage b)
  | .decZpX b => .memory (.zeroPageX b)
  | .decAbs w => .memory (.absolute w)
  | .decAbsX w => .memory (.absoluteX w)
  | .inx => .implied
  | .iny => .implied
  | .dex => .implied
  | .dey => .implied
  | .ldaImm v => .immediate v
  | .ldaZp b => .memory (.zeroPage b)
  | .ldaZpX b => .memory (.zeroPageX b)
  | .ldaAbs w => .memory (.absolute w)
  | .ldaAbsX w => .memory (.absoluteX w)
  | .ldaAbsY w => .memory (.absoluteY w)
  | .ldaIndX b => .memory (.indirectX b)
  | .ldaIndY b => .memory (.indirectY b)
  | .ldxImm v => .immediate v
  | .ldxZp b => .memory (.zeroPage b)
  | .ldxZpY b => .memory (.zeroPageY b)
  | .ldxAbs w => .memory (.absolute w)
  | .ldxAbsY w => .memory (.absoluteY w)
  | .ldyImm v => .immediate v
  | .ldyZp b => .memory (.zeroPage b)
  | .ldyZpX b => .memory (.zeroPageX b)
  | .ldyAbs w => .memory (.absolute w)
  | .ldyAbsX w => .memory (.absoluteX w)
  | .staZp b => .memory (.zeroPage b)
  | .staZpX b => .memory (.zeroPageX b)
  | .staAbs w => .memory (.absolute w)
  | .staAbsX w => .memory (.absoluteX w)
  | .staAbsY w => .memory (.absoluteY w)
  | .staIndX b => .memory (.indirectX b)
  | .staIndY b => .memory (.indirectY b)
  | .stxZp b => .memory (.zeroPage b)
  | .stxZpY b => .memory (.zeroPageY b)
  | .stxAbs w => .memory (.absolute w)
  | .styZp b => .memory (.zeroPage b)
  | .styZpX b => .memory (.zeroPageX b)
  | .styAbs w => .memory (.absolute w)
  | .bccRel d => .relative d
  | .bcsRel d => .relative d
  | .beqRel d => .relative d
  | .bneRel d => .relative d
  | .bmiRel d => .relative d
  | .bplRel d => .relative d
  | .bvcRel d => .relative d
  | .bvsRel d => .relative d
  | .jmpAbs w => .memory (.absolute w)
  | .jmpInd w => .indirect w
  | .jsrAbs w => .memory (.absolute w)
  | .rts => .implied
  | .brk => .implied
  | .rti => .implied
  | .pha => .implied
  | .php => .implied
  | .pla => .implied
  | .plp => .implied
  | .tax => .implied
  | .tay => .implied
  | .tsx => .implied
  | .txa => .implied
  | .txs => .implied
  | .tya => .implied
  | .clc => .implied
  | .cld => .implied
  | .cli => .implied
  | .clv => .implied
  | .sec => .implied
  | .sed => .implied
  | .sei => .implied
  | .nop => .implied

end Sys2Proof
end

