-- ==== Sys2Proof/Machine/Driver.lean ====
section
/-! DEFINITION. Sys2Proof/Machine/Driver.lean: the host operations of the block (R9): `reset()`, `nmi()`, `irq()`,
`PpuTick()`, `InstallCartridge`, `GetRange`, the opcode metadata, and the reference Driver iteration of R302. They happen
only between two steps (R55). -/

namespace Sys2Proof.Machine

/-- What `reset()` writes (R290). -/
def resetBlock (s : State) : State :=
  let w := loadWord Config.vecReset s
  ((((w.2.setPc w.1).setSp Config.resetSp).setP Config.resetP).setCyc 0).setHalted none

/-- `reset()` as the host calls it: a cartridge must be installed (R48, R292; assumption 2). -/
def hostReset (s : State) : Host.Outcome State Fault Refusal :=
  match s.slot with
  | none => .refused .noCartridge
  | some _ => .next (resetBlock s)

/-- `nmi()` (R265): the live status is pushed unmodified; not masked by `P.I`; no effect on a halted CPU (R23). -/
def nmi (s : State) : State :=
  match s.halted with
  | some _ => s
  | none =>
    let t := enterTrap s.pc s.p Config.vecNmi s
    t.setCyc (t.cyc + Config.nmiCycles)

/-- `irq()` (R268): no effect when `P.I` is set or the CPU is halted; the pushed copy has bit 4 clear. -/
def irq (s : State) : State :=
  match s.halted, getFlag .interruptDisable s.p with
  | none, false =>
    let t := enterTrap s.pc (s.p &&& ~~~0x10#8) Config.vecIrq s
    t.setCyc (t.cyc + Config.nmiCycles)
  | _, _ => s

/-- `PpuTick()` (R128), `n` times. -/
def ppuTicks (n : Nat) (s : State) : State := s.setPpu (s.ppu.ticks n)

/-- What `InstallCartridge` answers (R69). -/
inductive InstallResult where
  | installed (s : State)
  | refused (e : ImageError)
deriving DecidableEq, Repr

/-- `InstallCartridge(img)` (R69, R70): on an error nothing changes; otherwise the cartridge and a fresh engine replace
the slot, and nothing else changes. -/
def installCartridge (img : List Byte) (s : State) : InstallResult :=
  let h := parseHeader img
  match h.error img.length, engineOf h.mapperId with
  | some e, _ => .refused e
  | none, some e => .installed (s.setSlot (some (freshSlot (cartridgeOf img) e)))
  | none, none => .refused (.unsupportedMapper h.mapperId)

/-- `GetRange(start, count)` (R280): a pure peek, wrapping at 0x10000. -/
def getRange (start : Addr) : Nat → State → List Byte
  | 0, _ => []
  | n + 1, s => peek start s :: getRange (start + 1#16) n s

/-- One row of the debug view of the opcode table (R279): mnemonic, addressing mode name, size, base cycles. -/
structure OpMetadata where
  mnemonic : String
  mode : String
  size : Nat
  cycles : Nat
deriving DecidableEq, Repr

/-- The opcode metadata of a byte; undefined bytes have no entry (R279). -/
def opMetadata (op : Byte) : Option OpMetadata :=
  (opEntry op).map fun e => { mnemonic := e.mnemonic.name, mode := e.mode.name, size := e.length, cycles := e.cycles }

/-- The Driver's handling of `dmaDone` after a `step()` that returned `c` cycles (R126, R302): the stall is added to
`CYC` and to the cycles owed to the PPU, and the latch is cleared. -/
def settleDma (s : State) (c : Nat) : State × Nat :=
  if s.ppu.dmaDone then
    ((s.setPpu { s.ppu with dmaDone := false }).setCyc (s.cyc + Config.dmaStall), c + Config.dmaStall)
  else (s, c)

/-- The Driver's handling of `nmiRequest` (R264, R302): the latch is cleared, `nmi()` is called, and the PPU runs for its
cycles. -/
def settleNmi (s : State) : State :=
  if s.ppu.nmiRequest then
    ppuTicks (Config.ppuPerCpu * Config.nmiCycles) (nmi (s.setPpu { s.ppu with nmiRequest := false }))
  else s

/-- The Driver's handling of `newFrame` (R302). -/
def settleFrame (s : State) : State := s.setPpu { s.ppu with newFrame := false }

/-- What the reference Driver does after a `step()` that returned `c` cycles (R302). -/
def driverAfter (s : State) (c : Nat) : State :=
  let d := settleDma s c
  settleFrame (settleNmi (ppuTicks (Config.ppuPerCpu * d.2) d.1))

/-- The reference Driver iteration (R302): on a fatal dispatch it stops; on a halted CPU nothing happens (R23). -/
def driverIteration (s : State) : Host.Outcome State Fault Refusal :=
  match s.halted, s.slot with
  | some _, _ => .next s
  | none, none => .refused .noCartridge
  | none, some _ =>
    match cpuStep s with
    | .done t c => .next (driverAfter t c)
    | .fatal _ op addr => .fault (.fatalDispatch op addr)
    | .faulted f => .fault f
    | .refused r => .refused r

end Sys2Proof.Machine
end

