-- ==== Sys2Proof/Safety.lean ====
section
/-! DEFINITION. Sys2Proof/Safety.lean: the invariants of the block, and what counts as a safe run. -/

namespace Sys2Proof.Machine

/-- A memory in canonical form that holds cells below `size` only. -/
def Memory.canonical (size : Nat) (m : Memory) : Bool := m.wf && Memory.within size m

/-- The engine is the one the mapper id selects, and M1's count is 0 to 4 (R70, R78). -/
def engineFits (id : Byte) : Engine → Bool
  | .m0 => decide (id = 0#8)
  | .m1 r => decide (id = 1#8) && decide (r.count < 5)
  | .m2 _ => decide (id = 2#8)
  | .m3 _ => decide (id = 3#8)

/-- A cartridge slot as `InstallCartridge` and the mapper registers can make it (R66 to R73). -/
def Slot.wf (sl : Slot) : Bool :=
  decide (1 ≤ sl.cart.prgBanks) && decide (sl.cart.prgBanks ≤ 255) && decide (sl.cart.chrBanks ≤ 255) &&
  decide (sl.cart.mirroring = .horizontal ∨ sl.cart.mirroring = .vertical) &&
  Memory.canonical sl.cart.prgSize sl.cart.prg && Memory.canonical (sl.cart.chrBanks * Config.chrBankSize) sl.cart.chr &&
  Memory.canonical Config.chrBankSize sl.chrRam && decide (sl.cart.chrBanks = 0 ∨ sl.chrRam = []) &&
  engineFits sl.cart.mapperId sl.engine

/-- The PPU interface: its memories are canonical, its position is in the frame, and the status bits that belong to
rendering are 0 (R29, R31, R107). -/
def Ppu.wf (u : Ppu) : Bool :=
  Memory.canonical Config.oamSize u.oam && Memory.canonical Config.ntSize u.nt && Memory.canonical Config.palSize u.pal &&
  decide (u.scanline < Config.linesPerFrame) && decide (u.dot < Config.dotsPerLine) &&
  decide (u.status &&& 0x7F#8 = 0#8)

/-- The invariant of the block: every memory is in canonical form and within its size, the cartridge slot and the PPU
interface are well formed. -/
def State.wf (s : State) : Bool :=
  Memory.canonical Config.ramSize s.ram && s.slot.all Slot.wf && s.ppu.wf

/-- R16: the Unused bit of the status register is 1. -/
def State.unusedSet (s : State) : Bool := getFlag .unused s.p

/-- The cartridge record of the slot (R26). -/
def State.cart (s : State) : Option Cartridge := s.slot.map Slot.cart

/-- No run from `s` ends in a fault: no undefined opcode is ever dispatched (R260: "no claim holds of a run that reaches
it"). -/
def NeverFatal (s : State) : Prop := ∀ n f, Host.Core.run Sys2Proof.core n s ≠ .fault f

end Sys2Proof.Machine
end

