-- ==== Sys2Proof/Certificates/Slice0/Obligations.lean ====
section
/-! DEFINITION. Sys2Proof/Certificates/Slice0/Obligations.lean: the statements, in the order of OBLIGATIONS.json. Where a
docstring says "the spec's decision D<n>", the clause rests on a choice that the spec marks as its own (assumption 11). -/

namespace Sys2Proof.Machine

/-! What the statements say in common. -/

/-- The opcode bytes of a mnemonic, in rising order. -/
def opcodesOf (m : Mnemonic) : List Byte := (opcodeTable.filter fun e => e.mnemonic == m).map OpEntry.opcode

/-- The opcode bytes of each base cost, in rising order (the "base cycles" column of R146). -/
def opcodesOfCost : Nat → List Byte
  | 2 => [0x09#8, 0x0A#8, 0x10#8, 0x18#8, 0x29#8, 0x2A#8, 0x30#8, 0x38#8, 0x49#8, 0x4A#8, 0x50#8, 0x58#8, 0x69#8,
      0x6A#8, 0x70#8, 0x78#8, 0x88#8, 0x8A#8, 0x90#8, 0x98#8, 0x9A#8, 0xA0#8, 0xA2#8, 0xA8#8, 0xA9#8, 0xAA#8,
      0xB0#8, 0xB8#8, 0xBA#8, 0xC0#8, 0xC8#8, 0xC9#8, 0xCA#8, 0xD0#8, 0xD8#8, 0xE0#8, 0xE8#8, 0xE9#8, 0xEA#8,
      0xF0#8, 0xF8#8]
  | 3 => [0x05#8, 0x08#8, 0x24#8, 0x25#8, 0x45#8, 0x48#8, 0x4C#8, 0x65#8, 0x84#8, 0x85#8, 0x86#8, 0xA4#8, 0xA5#8,
      0xA6#8, 0xC4#8, 0xC5#8, 0xE4#8, 0xE5#8]
  | 4 => [0x0D#8, 0x15#8, 0x19#8, 0x1D#8, 0x28#8, 0x2C#8, 0x2D#8, 0x35#8, 0x39#8, 0x3D#8, 0x4D#8, 0x55#8, 0x59#8,
      0x5D#8, 0x68#8, 0x6D#8, 0x75#8, 0x79#8, 0x7D#8, 0x8C#8, 0x8D#8, 0x8E#8, 0x94#8, 0x95#8, 0x96#8, 0xAC#8,
      0xAD#8, 0xAE#8, 0xB4#8, 0xB5#8, 0xB6#8, 0xB9#8, 0xBC#8, 0xBD#8, 0xBE#8, 0xCC#8, 0xCD#8, 0xD5#8, 0xD9#8,
      0xDD#8, 0xEC#8, 0xED#8, 0xF5#8, 0xF9#8, 0xFD#8]
  | 5 => [0x06#8, 0x11#8, 0x26#8, 0x31#8, 0x46#8, 0x51#8, 0x66#8, 0x6C#8, 0x71#8, 0x99#8, 0x9D#8, 0xB1#8, 0xC6#8,
      0xD1#8, 0xE6#8, 0xF1#8]
  | 6 => [0x01#8, 0x0E#8, 0x16#8, 0x20#8, 0x21#8, 0x2E#8, 0x36#8, 0x40#8, 0x41#8, 0x4E#8, 0x56#8, 0x60#8, 0x61#8,
      0x6E#8, 0x76#8, 0x81#8, 0x91#8, 0xA1#8, 0xC1#8, 0xCE#8, 0xD6#8, 0xE1#8, 0xEE#8, 0xF6#8]
  | 7 => [0x00#8, 0x1E#8, 0x3E#8, 0x5E#8, 0x7E#8, 0xDE#8, 0xFE#8]
  | _ => []

/-- The mnemonics that write Z and N (R14): those whose rule calls `SetZN` (R17), and BIT, PLP, RTI. -/
def writesZN : List Mnemonic :=
  [.adc, .sbc, .and, .ora, .eor, .bit, .asl, .lsr, .rol, .ror, .cmp, .cpx, .cpy, .inc, .dec, .inx, .iny, .dex, .dey, .lda,
    .ldx, .ldy, .pla, .plp, .rti, .tax, .tay, .tsx, .txa, .tya]

/-- The status `q` is `p` after `SetZN(v)`: Z and N from `v`, every other flag as in `p` (R17). -/
def SetsZN (v p q : Byte) : Prop :=
  getFlag .zero q = (v == 0#8) ∧ getFlag .negative q = v.getLsbD 7 ∧
    ∀ f, f ≠ .zero → f ≠ .negative → getFlag f q = getFlag f p

/-- The status `q` is `p` with C set to `c` and `SetZN(v)`, every other flag as in `p`. -/
def SetsCZN (c : Bool) (v p q : Byte) : Prop :=
  getFlag .carry q = c ∧ getFlag .zero q = (v == 0#8) ∧ getFlag .negative q = v.getLsbD 7 ∧
    ∀ f, f ≠ .carry → f ≠ .zero → f ≠ .negative → getFlag f q = getFlag f p

/-- Instruction `i` reads an operand byte `m` and answers the state that `f m` describes, `f` being told the state after
the operand's loads, which differs from `s` in the PPU interface at most. -/
def ReadsOperand (i : Instr) (s : State) (f : Byte → State → State → Prop) : Prop :=
  ∃ o t, i.form.operand = some o ∧ exec i s = .next t ∧
    f (readOperand o s).1 (s.setPpu (readOperand o s).2.ppu) t

/-- Instruction `i` replaces its operand (`A` in accumulator mode, the cell at the effective address in a memory mode,
loaded once and stored once) by the byte, and the status by the one, that `f` relates to the old operand. -/
def ModifiesOperand (i : Instr) (s : State) (f : Byte → Byte → Byte → Prop) : Prop :=
  match i.form with
  | .accumulator => ∃ r q, f s.a r q ∧ exec i s = .next ((s.setA r).setP q)
  | .memory ref =>
    let ea := resolve ref s
    let m := load ea.1 ea.2
    ∃ r q, f m.1 r q ∧ exec i s = .next ((store ea.1 r (s.setPpu m.2.ppu)).setP q)
  | _ => False

/-- The condition of each branch on the status (R216 to R223); none for the other mnemonics. -/
def branchCondition (m : Mnemonic) (p : Byte) : Option Bool :=
  match m with
  | .bcc => some (!getFlag .carry p)
  | .bcs => some (getFlag .carry p)
  | .beq => some (getFlag .zero p)
  | .bne => some (!getFlag .zero p)
  | .bmi => some (getFlag .negative p)
  | .bpl => some (!getFlag .negative p)
  | .bvc => some (!getFlag .overflow p)
  | .bvs => some (getFlag .overflow p)
  | _ => none

/-- What `step()` does after a handler that left `t`: `PC` past the operand bytes if the entry tracks it, and the base
cost (R296). -/
def afterHandler (e : OpEntry) (t : State) : State :=
  (t.setPc (t.pc + BitVec.ofNat 16 (if e.trackPc then e.length - 1 else 0))).setCyc (t.cyc + e.cycles)

/-- The word at two work RAM cells of the stack page. -/
def stackWord (s : State) (hi lo : Byte) : Addr :=
  wordOf (s.ram.read (0x100 + hi.toNat)) (s.ram.read (0x100 + lo.toNat))

/-- The word a vector holds: both bytes come from the cartridge window. -/
def vectorWord (s : State) (a : Addr) : Addr := wordOf (cartLoad s.slot (a + 1#16)) (cartLoad s.slot a)

/-- Work RAM `n` is work RAM `m` after a trap entry that pushed `ret` and `status` from the stack pointer `sp`: three cells
written, every other cell as before. -/
def PushedFrame (sp : Byte) (ret : Addr) (status : Byte) (m n : Memory) : Prop :=
  n.read (0x100 + sp.toNat) = hiByte ret ∧ n.read (0x100 + (sp - 1#8).toNat) = loByte ret ∧
    n.read (0x100 + (sp - 2#8).toNat) = status ∧
    ∀ k, k ≠ 0x100 + sp.toNat → k ≠ 0x100 + (sp - 1#8).toNat → k ≠ 0x100 + (sp - 2#8).toNat → n.read k = m.read k

/-- The mnemonics that store to memory: to their operand (in a memory mode) or to the stack. -/
def storesOperand : Mnemonic → Bool
  | .sta | .stx | .sty | .asl | .lsr | .rol | .ror | .inc | .dec => true
  | _ => false

/-- The mnemonics that push onto the stack. -/
def pushes : Mnemonic → Bool
  | .pha | .php | .jsr | .brk => true
  | _ => false

/-- The instruction writes memory: a storing mnemonic in a memory mode, or a push. -/
def writesMemory (i : Instr) : Bool :=
  (storesOperand i.mnemonic && decide (i.form ≠ .accumulator)) || pushes i.mnemonic

/-- The address and a second one name the same work RAM cell, directly or through a mirror (R43). -/
def sameRamCell (a b : Addr) : Bool :=
  decide (a.toNat ≤ 0x1FFF) && decide (b.toNat ≤ 0x1FFF) && decide (a.toNat % 2048 = b.toNat % 2048)

/-- The PPU position as a number of PPU cycles into the frame (R31, R128). -/
def framePosition (u : Ppu) : Nat := u.scanline * Config.dotsPerLine + u.dot

/-- Five stores through the Mapper's CPU port, the fifth at address `a`. -/
def fiveStores (sl : Slot) (a0 a1 a2 a3 a : Addr) (b0 b1 b2 b3 b4 : Byte) : Slot :=
  ((((sl.cpuStore a0 b0).cpuStore a1 b1).cpuStore a2 b2).cpuStore a3 b3).cpuStore a b4

/-- Memory `n` is memory `m` with `v` in cell `k`: every other cell as before. -/
def Puts (m n : Memory) (k : Nat) (v : Byte) : Prop := n.read k = v ∧ ∀ j, j ≠ k → n.read j = m.read j

end Sys2Proof.Machine

open Sys2Proof Sys2Proof.Machine

/-! Encoding. -/

/-- Decoding the encoding of a well-formed instruction, with any bytes after it, gives that instruction back and leaves
those bytes, for every operand value (R140, R141, R144; the byte values are the spec's decision D1). -/
def Obligations.DecodeEncodeRoundTrip : Prop :=
  ∀ (i : Instr) (rest : List Byte), i.wellFormed = true → decode (encode i ++ rest) = .ok i rest

/-- Every byte string has one reading: what decodes to an instruction is that instruction's encoding followed by the rest
(R140, R141, R144; the byte values are the spec's decision D1). -/
def Obligations.DecodedBytesAreTheEncoding : Prop :=
  ∀ (bytes : List Byte) (i : Instr) (rest : List Byte), decode bytes = .ok i rest → bytes = encode i ++ rest

/-- The decoder refuses a first byte by name exactly when it is one of the 105 bytes R147 lists, and those are 105
different bytes (the spec's decision D1). -/
def Obligations.UndefinedOpcodesAreRejected : Prop :=
  undefinedOpcodes.length = 105 ∧ undefinedOpcodes.Nodup ∧
    ∀ (op : Byte) (rest : List Byte), decode (op :: rest) = .undefinedOpcode op ↔ op ∈ undefinedOpcodes

/-- A word of each family, written out from the columns of R144, decodes to the instruction it stands for. -/
def Obligations.SpecWordsDecode : Prop :=
  decode [0x69#8, 0x50#8] = .ok (.adcImm 0x50#8) [] ∧ decode [0x2C#8, 0x02#8, 0x20#8] = .ok (.bitAbs 0x2002#16) [] ∧
  decode [0x3E#8, 0x00#8, 0x02#8] = .ok (.rolAbsX 0x0200#16) [] ∧ decode [0xC0#8, 0x7F#8] = .ok (.cpyImm 0x7F#8) [] ∧
  decode [0xF6#8, 0xF0#8] = .ok (.incZpX 0xF0#8) [] ∧ decode [0x96#8, 0x10#8] = .ok (.stxZpY 0x10#8) [] ∧
  decode [0xB1#8, 0x20#8] = .ok (.ldaIndY 0x20#8) [] ∧ decode [0xD0#8, 0xF9#8] = .ok (.bneRel 0xF9#8) [] ∧
  decode [0x6C#8, 0xFF#8, 0x02#8] = .ok (.jmpInd 0x02FF#16) [] ∧ decode [0x28#8] = .ok .plp []

/-- The opcode-table entry of an instruction's first byte has its mnemonic, its mode and its length (R140, R144), the
base cost that R146 gives the byte, and tracks `PC` unless the mnemonic is a branch, JMP, JSR, RTS, RTI or BRK (R148).
The byte values are the spec's decision D1, the costs its decision D2, the flag its decision D42. The opcode bytes are
the spec's decision D1. -/
def Obligations.TableEntryOfEveryInstruction : Prop :=
  ∀ i : Instr, ∃ op rest e, encode i = op :: rest ∧ opEntry op = some e ∧ e.opcode = op ∧ e.mnemonic = i.mnemonic ∧
    e.mode = i.form.mode ∧ e.length = rest.length + 1 ∧ (∀ c, e.cycles = c ↔ op ∈ opcodesOfCost c) ∧
    (e.trackPc = false ↔
      i.mnemonic ∈ [.bcc, .bcs, .beq, .bne, .bmi, .bpl, .bvc, .bvs, .jmp, .jsr, .rts, .rti, .brk])

/-! The step. -/

/-- A step of a running CPU with a cartridge, on a byte that has an opcode-table entry: the bytes loaded at `PC` decode to
an instruction, and the step is that instruction's `exec` at handler time (`PC` one past the opcode, R296), then `PC`
past the operand bytes if the entry tracks it, and the base cost. The loads may change the PPU interface (R57). -/
def Obligations.StepRunsDecodedInstruction : Prop :=
  ∀ (s : State) (sl : Slot) (e : OpEntry), s.halted = none → s.slot = some sl →
    opEntry (load s.pc s).1 = some e →
    let h := (s.setPpu (load s.pc s).2.ppu).setPc (s.pc + 1#16)
    let f := fetchOperands e.mode.operandBytes h
    ∃ i t, decode ((load s.pc s).1 :: [f.1.1, f.1.2].take e.mode.operandBytes) = .ok i [] ∧
      exec i (h.setPpu f.2.ppu) = .next t ∧ step s = .next (afterHandler e t)

/-- The same by what stands in memory: when the three bytes from `PC` on lie outside the PPU window and decode to an
instruction `i`, a step of a running CPU with a cartridge is `exec i` with `PC` one past the opcode, then `PC` past the
operand bytes and the base cost (R296, R57). -/
def Obligations.StepRunsTheBytesAtPc : Prop :=
  ∀ (s : State) (sl : Slot) (i : Instr) (rest : List Byte), s.halted = none → s.slot = some sl →
    (∀ n : Nat, n < 3 → ∀ r, region (s.pc + BitVec.ofNat 16 n) ≠ .ppu r) →
    decode [peek s.pc s, peek (s.pc + 1#16) s, peek (s.pc + 2#16) s] = .ok i rest →
    ∃ e t, opEntry (peek s.pc s) = some e ∧ exec i (s.setPc (s.pc + 1#16)) = .next t ∧
      step s = .next (afterHandler e t)

/-- An undefined opcode at `PC`: the step is a fault with the opcode and its address, and what `step()` leaves is the
Halted state, with `PC` one past the opcode and nothing else changed but what the opcode's own load did (R260; the
record and the `PC` are the spec's decision D11). -/
def Obligations.UndefinedOpcodeHalts : Prop :=
  ∀ (s : State) (sl : Slot), s.halted = none → s.slot = some sl → (load s.pc s).1 ∈ undefinedOpcodes →
    step s = .fault (.fatalDispatch (load s.pc s).1 s.pc) ∧
    cpuStep s = .fatal (((s.setPpu (load s.pc s).2.ppu).setPc (s.pc + 1#16)).setHalted (some ((load s.pc s).1, s.pc)))
      (load s.pc s).1 s.pc

/-- Nothing else faults (R261): every instruction in every state answers a next state, whatever it loads, stores, pops or
jumps to, and a step that faults is the fatal dispatch of a byte without an opcode-table entry. -/
def Obligations.NothingElseFaults : Prop :=
  (∀ (i : Instr) (s : State), ∃ t, exec i s = .next t) ∧
  ∀ (s : State) (f : Fault), step s = .fault f →
    opEntry (load s.pc s).1 = none ∧ f = .fatalDispatch (load s.pc s).1 s.pc

/-- Where nothing runs. On a halted CPU `step()`, `nmi()` and `irq()` leave the state as it is, and `reset()` leaves Halted
(R23, R296; the spec's decision D11); that a Driver iteration leaves it as it is too is the model's choice, log entry 17.
With no cartridge installed, `step()` of a running CPU and `reset()` are refused by name (R48, R292: outside the contract;
the refusal is the model's choice, log entry 2). The Bus then answers 0 in the cartridge window (the spec's decision D38),
and drops stores there, which is the model's choice, log entry 2. -/
def Obligations.HaltedOrWithoutCartridge : Prop :=
  (∀ (s : State) (w : Byte × Addr), s.halted = some w →
    step s = .next s ∧ driverIteration s = .next s ∧ nmi s = s ∧ irq s = s ∧ (resetBlock s).halted = none) ∧
  ∀ s : State, s.slot = none →
    (s.halted = none → step s = .refused .noCartridge) ∧ hostReset s = .refused .noCartridge ∧
    ∀ (a : Addr) (v : Byte), 0x4020 ≤ a.toNat → load a s = (0x00#8, s) ∧ store a v s = s

/-- A step adds the base cost of the opcode it fetched to `CYC`, between 2 and 7, whatever the instruction did (R296,
R310: no page-cross and no branch-taken addition; the costs are the spec's decision D2, and TableEntryOfEveryInstruction
gives them byte by byte). -/
def Obligations.StepAddsTheBaseCost : Prop :=
  ∀ s t : State, s.halted = none → step s = .next t →
    ∃ e, opEntry (load s.pc s).1 = some e ∧ t.cyc = s.cyc + e.cycles ∧ 2 ≤ e.cycles ∧ e.cycles ≤ 7

/-! Invariants. -/

/-- Every step keeps the block well formed: all memories canonical and within their size, the cartridge slot as
installation and the mapper registers can make it, the PPU position in the frame, the rendering bits of `status` 0. -/
def Obligations.StepKeepsTheBlockWellFormed : Prop :=
  ∀ s t : State, s.wf = true → step s = .next t → t.wf = true

/-- The block is well formed in `State.reset`. The values there that D0 does not give are the spec's decision D10 (the
construction column of R35) and the model's choice, log entry 4; that it holds no cartridge is log entry 10. -/
def Obligations.ResetIsWellFormed : Prop := State.reset.wf = true

/-- The host operations keep the block well formed: `reset()`, `nmi()`, `irq()`, `PpuTick()`, `InstallCartridge`, and a
whole Driver iteration. -/
def Obligations.HostOperationsKeepTheBlockWellFormed : Prop :=
  ∀ s : State, s.wf = true →
    (resetBlock s).wf = true ∧ (nmi s).wf = true ∧ (irq s).wf = true ∧ (∀ n, (ppuTicks n s).wf = true) ∧
    (∀ img t, installCartridge img s = .installed t → t.wf = true) ∧
    ∀ t, driverIteration s = .next t → t.wf = true

/-- The Unused bit of the status register stays 1 (R16, an inference the spec marks as its own): `reset()` sets it, and
every step, `nmi()`, `irq()` and Driver iteration keeps it. -/
def Obligations.UnusedFlagStaysSet : Prop :=
  (∀ s, (resetBlock s).unusedSet = true) ∧
  ∀ s : State, s.unusedSet = true →
    (nmi s).unusedSet = true ∧ (irq s).unusedSet = true ∧ (∀ t, step s = .next t → t.unusedSet = true) ∧
    ∀ t, driverIteration s = .next t → t.unusedSet = true

/-- The cartridge record is never mutated (R26): no step, Driver iteration, `reset()`, `nmi()`, `irq()` or PPU cycle changes
it, whatever is stored where; only a cartridge swap replaces it, as a whole. -/
def Obligations.CartridgeIsNeverMutated : Prop :=
  (∀ s t : State, step s = .next t → t.cart = s.cart) ∧
  (∀ s t : State, driverIteration s = .next t → t.cart = s.cart) ∧
  (∀ (s : State) (n : Nat), (resetBlock s).cart = s.cart ∧ (nmi s).cart = s.cart ∧ (irq s).cart = s.cart ∧
    (ppuTicks n s).cart = s.cart) ∧
  ∀ (img : List Byte) (s t : State), installCartridge img s = .installed t → t.cart = some (cartridgeOf img)

/-- The PPU clock belongs to the Driver (R301, R32): a step that answers a next state moves neither scanline nor dot, raises
neither the NMI request nor the new-frame signal, and clears no DMA signal. The Halted record is as before in that next
state because the model ends the one step that enters Halted (R23, R260) in a fault: log entry 7, the model's choice. -/
def Obligations.StepLeavesThePpuClockToTheDriver : Prop :=
  ∀ s t : State, step s = .next t →
    t.ppu.scanline = s.ppu.scanline ∧ t.ppu.dot = s.ppu.dot ∧ t.ppu.nmiRequest = s.ppu.nmiRequest ∧
    t.ppu.newFrame = s.ppu.newFrame ∧ (s.ppu.dmaDone = true → t.ppu.dmaDone = true) ∧ t.halted = s.halted

/-! Arithmetic, logic, shifts. -/

/-- ADC in all eight modes (R180): `A` becomes `A + M + C` modulo 256; C is the carry out of bit 7; V is set exactly
when `A` and `M` share a sign that the result does not have; Z and N from the result; I, D, B, U as before. Nothing else
changes but what the operand's loads did. The opcode bytes are the spec's decision D1. -/
def Obligations.AdcAddsWithCarry : Prop :=
  opcodesOf .adc = [0x61#8, 0x65#8, 0x69#8, 0x6D#8, 0x71#8, 0x75#8, 0x79#8, 0x7D#8] ∧
  ∀ (i : Instr) (s : State), i.mnemonic = .adc →
    ReadsOperand i s fun m u t =>
      let sum := s.a.toNat + m.toNat + (if getFlag .carry s.p then 1 else 0)
      ∃ r q : Byte, t = (u.setA r).setP q ∧ r.toNat = sum % 256 ∧
        getFlag .carry q = decide (255 < sum) ∧
        getFlag .overflow q = (s.a.getLsbD 7 == m.getLsbD 7 && r.getLsbD 7 != s.a.getLsbD 7) ∧
        getFlag .zero q = (r == 0#8) ∧ getFlag .negative q = r.getLsbD 7 ∧
        ∀ f ∈ [Flag.interruptDisable, .decimal, .breakBit, .unused], getFlag f q = getFlag f s.p

/-- SBC in all eight modes (R181; the carry convention is the spec's decision D5): `A` becomes `A - M - (1 - C)` modulo
256; C is set exactly when there is no borrow; V exactly when the signed difference does not fit; Z and N from the
result; I, D, B, U as before. Nothing else changes but what the operand's loads did. The opcode bytes are the spec's
decision D1. -/
def Obligations.SbcSubtractsWithBorrow : Prop :=
  opcodesOf .sbc = [0xE1#8, 0xE5#8, 0xE9#8, 0xED#8, 0xF1#8, 0xF5#8, 0xF9#8, 0xFD#8] ∧
  ∀ (i : Instr) (s : State), i.mnemonic = .sbc →
    ReadsOperand i s fun m u t =>
      let borrow := if getFlag .carry s.p then 0 else 1
      let diff := s.a.toInt - m.toInt - (borrow : Int)
      ∃ r q : Byte, t = (u.setA r).setP q ∧ r.toNat = (s.a.toNat + 512 - m.toNat - borrow) % 256 ∧
        getFlag .carry q = decide (m.toNat + borrow ≤ s.a.toNat) ∧
        getFlag .overflow q = decide (diff < -128 ∨ 127 < diff) ∧
        getFlag .zero q = (r == 0#8) ∧ getFlag .negative q = r.getLsbD 7 ∧
        ∀ f ∈ [Flag.interruptDisable, .decimal, .breakBit, .unused], getFlag f q = getFlag f s.p

/-- The Decimal flag has no effect on ADC and SBC (R182; the spec's decision D4): setting it beforehand changes nothing of
what they leave but the flag itself. -/
def Obligations.DecimalFlagDoesNotChangeArithmetic : Prop :=
  ∀ (i : Instr) (s t : State), i.mnemonic = .adc ∨ i.mnemonic = .sbc → exec i s = .next t →
    exec i (s.setP (setFlag .decimal s.p)) = .next (t.setP (setFlag .decimal t.p))

/-- AND, ORA and EOR in all eight modes each (R185, R186, R187): `A` becomes the bitwise result; Z and N from it, the
other flags as before. Nothing else changes but what the operand's loads did. The opcode bytes are the spec's decision
D1. -/
def Obligations.LogicalInstructions : Prop :=
  opcodesOf .and = [0x21#8, 0x25#8, 0x29#8, 0x2D#8, 0x31#8, 0x35#8, 0x39#8, 0x3D#8] ∧
  opcodesOf .ora = [0x01#8, 0x05#8, 0x09#8, 0x0D#8, 0x11#8, 0x15#8, 0x19#8, 0x1D#8] ∧
  opcodesOf .eor = [0x41#8, 0x45#8, 0x49#8, 0x4D#8, 0x51#8, 0x55#8, 0x59#8, 0x5D#8] ∧
  ∀ (i : Instr) (s : State),
    (i.mnemonic = .and →
      ReadsOperand i s fun m u t => ∃ q, t = (u.setA (s.a &&& m)).setP q ∧ SetsZN (s.a &&& m) s.p q) ∧
    (i.mnemonic = .ora →
      ReadsOperand i s fun m u t => ∃ q, t = (u.setA (s.a ||| m)).setP q ∧ SetsZN (s.a ||| m) s.p q) ∧
    (i.mnemonic = .eor →
      ReadsOperand i s fun m u t => ∃ q, t = (u.setA (s.a ^^^ m)).setP q ∧ SetsZN (s.a ^^^ m) s.p q)

/-- BIT in both modes (R188; the spec's decision D3): Z from `A & M`, N and V from bits 7 and 6 of `M`, the other flags
as before; `A` and memory are not written. The opcode bytes are the spec's decision D1. -/
def Obligations.BitTestsMemory : Prop :=
  opcodesOf .bit = [0x24#8, 0x2C#8] ∧
  ∀ (i : Instr) (s : State), i.mnemonic = .bit →
    ReadsOperand i s fun m u t =>
      ∃ q, t = u.setP q ∧ getFlag .zero q = (s.a &&& m == 0#8) ∧ getFlag .negative q = m.getLsbD 7 ∧
        getFlag .overflow q = m.getLsbD 6 ∧
        ∀ f, f ≠ .zero → f ≠ .negative → f ≠ .overflow → getFlag f q = getFlag f s.p

/-- ASL, LSR, ROL and ROR in accumulator and memory modes (R190 to R194; the carry conventions are the spec's decision
D5): the operand is doubled modulo 256, or halved, or rotated by one through the carry; C is the bit shifted out; Z and
N from the result, the other flags as before. The opcode bytes are the spec's decision D1. -/
def Obligations.ShiftAndRotateInstructions : Prop :=
  opcodesOf .asl = [0x06#8, 0x0A#8, 0x0E#8, 0x16#8, 0x1E#8] ∧ opcodesOf .lsr = [0x46#8, 0x4A#8, 0x4E#8, 0x56#8, 0x5E#8] ∧
  opcodesOf .rol = [0x26#8, 0x2A#8, 0x2E#8, 0x36#8, 0x3E#8] ∧ opcodesOf .ror = [0x66#8, 0x6A#8, 0x6E#8, 0x76#8, 0x7E#8] ∧
  ∀ (i : Instr) (s : State),
    (i.mnemonic = .asl →
      ModifiesOperand i s fun m r q => r.toNat = 2 * m.toNat % 256 ∧ SetsCZN (m.getLsbD 7) r s.p q) ∧
    (i.mnemonic = .lsr →
      ModifiesOperand i s fun m r q => r.toNat = m.toNat / 2 ∧ SetsCZN (m.getLsbD 0) r s.p q) ∧
    (i.mnemonic = .rol →
      ModifiesOperand i s fun m r q =>
        r.toNat = (2 * m.toNat + (if getFlag .carry s.p then 1 else 0)) % 256 ∧ SetsCZN (m.getLsbD 7) r s.p q) ∧
    (i.mnemonic = .ror →
      ModifiesOperand i s fun m r q =>
        r.toNat = m.toNat / 2 + (if getFlag .carry s.p then 128 else 0) ∧ SetsCZN (m.getLsbD 0) r s.p q)

/-- CMP, CPX and CPY in all their modes (R195 to R198; the carry convention is the spec's decision D5): C is "register
at least operand" as unsigned numbers, Z is "equal", N is bit 7 of the difference; the other flags as before; no
register and no memory cell is written. The opcode bytes are the spec's decision D1. -/
def Obligations.CompareInstructions : Prop :=
  opcodesOf .cmp = [0xC1#8, 0xC5#8, 0xC9#8, 0xCD#8, 0xD1#8, 0xD5#8, 0xD9#8, 0xDD#8] ∧
  opcodesOf .cpx = [0xE0#8, 0xE4#8, 0xEC#8] ∧ opcodesOf .cpy = [0xC0#8, 0xC4#8, 0xCC#8] ∧
  ∀ (i : Instr) (s : State) (r : Byte),
    (i.mnemonic = .cmp ∧ r = s.a) ∨ (i.mnemonic = .cpx ∧ r = s.x) ∨ (i.mnemonic = .cpy ∧ r = s.y) →
      ReadsOperand i s fun m u t =>
        ∃ q, t = u.setP q ∧ getFlag .carry q = decide (m.toNat ≤ r.toNat) ∧ getFlag .zero q = (r == m) ∧
          getFlag .negative q = (r - m).getLsbD 7 ∧
          ∀ f, f ≠ .carry → f ≠ .zero → f ≠ .negative → getFlag f q = getFlag f s.p

/-- INC and DEC in all four modes each (R200, R201) load the cell once, change it by one modulo 256 and store it once;
INX, INY, DEX and DEY (R202 to R205) change the index register by one modulo 256. Z and N from the result (the spec's
decision D6), the other flags, C and V among them, as before; nothing else changes. The opcode bytes are the spec's
decision D1. -/
def Obligations.IncrementInstructions : Prop :=
  opcodesOf .inc = [0xE6#8, 0xEE#8, 0xF6#8, 0xFE#8] ∧ opcodesOf .dec = [0xC6#8, 0xCE#8, 0xD6#8, 0xDE#8] ∧
  (∀ (i : Instr) (s : State),
    (i.mnemonic = .inc → ModifiesOperand i s fun m r q => r.toNat = (m.toNat + 1) % 256 ∧ SetsZN r s.p q) ∧
    (i.mnemonic = .dec → ModifiesOperand i s fun m r q => r.toNat = (m.toNat + 255) % 256 ∧ SetsZN r s.p q)) ∧
  ∀ s : State, ∃ q1 q2 q3 q4 : Byte,
    exec .inx s = .next ((s.setX (s.x + 1#8)).setP q1) ∧ SetsZN (s.x + 1#8) s.p q1 ∧
    exec .iny s = .next ((s.setY (s.y + 1#8)).setP q2) ∧ SetsZN (s.y + 1#8) s.p q2 ∧
    exec .dex s = .next ((s.setX (s.x - 1#8)).setP q3) ∧ SetsZN (s.x - 1#8) s.p q3 ∧
    exec .dey s = .next ((s.setY (s.y - 1#8)).setP q4) ∧ SetsZN (s.y - 1#8) s.p q4

/-! Loads and stores. -/

/-- LDA, LDX and LDY in all their modes (R207, R208, R209): the register becomes the operand; Z and N from it, the other
flags as before. Nothing else changes but what the operand's loads did. The opcode bytes are the spec's decision D1. -/
def Obligations.LoadInstructions : Prop :=
  opcodesOf .lda = [0xA1#8, 0xA5#8, 0xA9#8, 0xAD#8, 0xB1#8, 0xB5#8, 0xB9#8, 0xBD#8] ∧
  opcodesOf .ldx = [0xA2#8, 0xA6#8, 0xAE#8, 0xB6#8, 0xBE#8] ∧ opcodesOf .ldy = [0xA0#8, 0xA4#8, 0xAC#8, 0xB4#8, 0xBC#8] ∧
  ∀ (i : Instr) (s : State),
    (i.mnemonic = .lda → ReadsOperand i s fun m u t => ∃ q, t = (u.setA m).setP q ∧ SetsZN m s.p q) ∧
    (i.mnemonic = .ldx → ReadsOperand i s fun m u t => ∃ q, t = (u.setX m).setP q ∧ SetsZN m s.p q) ∧
    (i.mnemonic = .ldy → ReadsOperand i s fun m u t => ∃ q, t = (u.setY m).setP q ∧ SetsZN m s.p q)

/-- STA, STX and STY in all their modes (R210, R211, R212): one store of the register at the effective address, with no
load of the operand; no flag and no register is written (that stores write no flag is the spec's decision D6). The
opcode bytes are the spec's decision D1. -/
def Obligations.StoreInstructions : Prop :=
  opcodesOf .sta = [0x81#8, 0x85#8, 0x8D#8, 0x91#8, 0x95#8, 0x99#8, 0x9D#8] ∧ opcodesOf .stx = [0x86#8, 0x8E#8, 0x96#8] ∧
  opcodesOf .sty = [0x84#8, 0x8C#8, 0x94#8] ∧
  ∀ (i : Instr) (s : State) (v : Byte),
    (i.mnemonic = .sta ∧ v = s.a) ∨ (i.mnemonic = .stx ∧ v = s.x) ∨ (i.mnemonic = .sty ∧ v = s.y) →
      ∃ ref t, i.form = .memory ref ∧ exec i s = .next t ∧
        t = store (resolve ref s).1 v (s.setPpu (resolve ref s).2.ppu) ∧
        t.a = s.a ∧ t.x = s.x ∧ t.y = s.y ∧ t.sp = s.sp ∧ t.p = s.p ∧ t.pc = s.pc ∧ t.cyc = s.cyc ∧ t.halted = s.halted

/-! Control flow. -/

/-- The eight branches (R215 to R223; the decoding and the base of the displacement are the spec's decisions D7 and D8):
taken, `PC` becomes the next instruction's address plus the displacement as a signed number, modulo 65536; not taken,
the next instruction's address. Nothing else changes. The opcode bytes are the spec's decision D1. -/
def Obligations.BranchInstructions : Prop :=
  [Mnemonic.bcc, .bcs, .beq, .bne, .bmi, .bpl, .bvc, .bvs].map opcodesOf =
    [[0x90#8], [0xB0#8], [0xF0#8], [0xD0#8], [0x30#8], [0x10#8], [0x50#8], [0x70#8]] ∧
  ∀ (i : Instr) (s : State) (c : Bool), branchCondition i.mnemonic s.p = some c →
    ∃ d pc, i.form = .relative d ∧ exec i s = .next (s.setPc pc) ∧
      (pc.toNat : Int) = (s.pc.toNat + 1 + (if c then d.toInt else 0)) % 65536

/-- JMP (R225, R226): absolute takes the operand as the target; indirect loads the low byte at the pointer, then the
high byte at the next address within the pointer's page. Nothing else changes but what the pointer's loads did. The
opcode bytes are the spec's decision D1. -/
def Obligations.JumpInstructions : Prop :=
  opcodesOf .jmp = [0x4C#8, 0x6C#8] ∧
  ∀ (w : Addr) (s : State),
    exec (.jmpAbs w) s = .next (s.setPc w) ∧
    (let lo := load w s
     let hi := load ((w &&& 0xFF00#16) ||| ((w + 1#16) &&& 0x00FF#16)) lo.2
     exec (.jmpInd w) s = .next ((s.setPpu hi.2.ppu).setPc (wordOf hi.1 lo.1)))

/-- JSR (R227; that the operand is read before the push is the spec's decision D16): the address of its own last byte is
pushed, high byte first, `SP` falls by two modulo 256, `PC` becomes the target. Every other work RAM cell and everything
else is as before. The opcode bytes are the spec's decision D1. -/
def Obligations.JsrPushesTheReturnAddress : Prop :=
  opcodesOf .jsr = [0x20#8] ∧
  ∀ (w : Addr) (s : State), ∃ ram, exec (.jsrAbs w) s = .next (((s.setRam ram).setSp (s.sp - 2#8)).setPc w) ∧
    ram.read (0x100 + s.sp.toNat) = hiByte (s.pc + 1#16) ∧
    ram.read (0x100 + (s.sp - 1#8).toNat) = loByte (s.pc + 1#16) ∧
    ∀ k, k ≠ 0x100 + s.sp.toNat → k ≠ 0x100 + (s.sp - 1#8).toNat → ram.read k = s.ram.read k

/-- BRK (R229, R230, R271; the pushed status is the spec's decision D43): the address two past the opcode and the status
with bit 4 set are pushed, `SP` falls by three, `P.I` is set and no other live flag changes, `PC` is loaded from the
IRQ/BRK vector. Every other work RAM cell and everything else is as before. The opcode bytes are the spec's decision D1.
-/
def Obligations.BrkEntersItsHandler : Prop :=
  opcodesOf .brk = [0x00#8] ∧
  ∀ s : State, ∃ ram,
    exec .brk s =
      .next ((((s.setRam ram).setSp (s.sp - 3#8)).setP (s.p ||| 0x04#8)).setPc (vectorWord s 0xFFFE#16)) ∧
    PushedFrame s.sp (s.pc + 1#16) (s.p ||| 0x10#8) s.ram ram

/-- RTS (R228): `PC` becomes the popped word plus one modulo 65536, `SP` rises by two modulo 256. RTI (R231): `P` becomes
the popped byte with bit 5 forced to 1, `PC` the popped word, with no one added; `SP` rises by three modulo 256. Nothing
else changes. The opcode bytes are the spec's decision D1. -/
def Obligations.ReturnInstructions : Prop :=
  opcodesOf .rts = [0x60#8] ∧ opcodesOf .rti = [0x40#8] ∧
  ∀ s : State,
    exec .rts s = .next ((s.setSp (s.sp + 2#8)).setPc (stackWord s (s.sp + 2#8) (s.sp + 1#8) + 1#16)) ∧
    exec .rti s =
      .next (((s.setSp (s.sp + 3#8)).setP (s.ram.read (0x100 + (s.sp + 1#8).toNat) ||| 0x20#8)).setPc
        (stackWord s (s.sp + 3#8) (s.sp + 2#8)))

/-- Each return undoes its entry (D0 §8 quoted in R228, and R272): RTS after a JSR, wherever the subroutine has moved
`PC`, leaves `PC = P0 + 3` (at handler time `PC` is `P0 + 1`) and `SP` as before; RTI after BRK, `nmi()` or `irq()`
restores `SP`, the return address and the pushed status (bits 5 and, for BRK, 4 set in it; bit 4 clear after `irq()`: the
spec's decision D43). -/
def Obligations.ReturnsUndoTheirEntries : Prop :=
  ∀ (s : State) (w pc : Addr), s.halted = none →
    (∀ t, exec (.jsrAbs w) s = .next t →
      exec .rts (t.setPc pc) = .next ((t.setSp s.sp).setPc (s.pc + 2#16))) ∧
    (∀ t, exec .brk s = .next t →
      exec .rti (t.setPc pc) = .next (((t.setSp s.sp).setP (s.p ||| 0x30#8)).setPc (s.pc + 1#16))) ∧
    exec .rti ((nmi s).setPc pc) = .next ((((nmi s).setSp s.sp).setP (s.p ||| 0x20#8)).setPc s.pc) ∧
    (getFlag .interruptDisable s.p = false →
      exec .rti ((irq s).setPc pc) = .next ((((irq s).setSp s.sp).setP ((s.p &&& 0xEF#8) ||| 0x20#8)).setPc s.pc))

/-! Stack, transfers, flags. -/

/-- PHA and PHP (R232, R233): the accumulator, or the status with bits 4 and 5 set, goes to the stack cell `SP` denotes,
every other work RAM cell is as before, and `SP` falls by one modulo 256; the live status is not changed. PLA and PLP
(R234, R235; Z and N of PLA are the spec's decision D6, the forced bit of PLP its decision D9): `SP` rises by one modulo
256 and the cell it then denotes goes to `A`, with Z and N from it, or to `P`, with bit 5 forced to 1. Nothing else
changes. The opcode bytes are the spec's decision D1. -/
def Obligations.StackInstructions : Prop :=
  [Mnemonic.pha, .php, .pla, .plp].map opcodesOf = [[0x48#8], [0x08#8], [0x68#8], [0x28#8]] ∧
  ∀ s : State,
    (∃ m, exec .pha s = .next ((s.setRam m).setSp (s.sp - 1#8)) ∧ Puts s.ram m (0x100 + s.sp.toNat) s.a) ∧
    (∃ m, exec .php s = .next ((s.setRam m).setSp (s.sp - 1#8)) ∧ Puts s.ram m (0x100 + s.sp.toNat) (s.p ||| 0x30#8)) ∧
    let v := s.ram.read (0x100 + (s.sp + 1#8).toNat)
    (∃ q, exec .pla s = .next (((s.setSp (s.sp + 1#8)).setA v).setP q) ∧ SetsZN v s.p q) ∧
    exec .plp s = .next ((s.setSp (s.sp + 1#8)).setP (v ||| 0x20#8))

/-- The six transfers (R236 to R241; Z and N are the spec's decision D6): the destination register becomes the source; Z
and N from the value, but "TXS alone does not touch flags". Nothing else changes. -/
def Obligations.TransferInstructions : Prop :=
  ∀ s : State, ∃ q1 q2 q3 q4 q5 : Byte,
    exec .tax s = .next ((s.setX s.a).setP q1) ∧ SetsZN s.a s.p q1 ∧
    exec .tay s = .next ((s.setY s.a).setP q2) ∧ SetsZN s.a s.p q2 ∧
    exec .tsx s = .next ((s.setX s.sp).setP q3) ∧ SetsZN s.sp s.p q3 ∧
    exec .txa s = .next ((s.setA s.x).setP q4) ∧ SetsZN s.x s.p q4 ∧
    exec .tya s = .next ((s.setA s.y).setP q5) ∧ SetsZN s.y s.p q5 ∧
    exec .txs s = .next (s.setSp s.x)

/-- The seven flag operations and NOP (R242 to R249): each writes its one flag and nothing else; NOP writes nothing. The
opcode bytes are the spec's decision D1. -/
def Obligations.FlagInstructionsAndNop : Prop :=
  [Mnemonic.clc, .cld, .cli, .clv, .sec, .sed, .sei, .nop].map opcodesOf =
    [[0x18#8], [0xD8#8], [0x58#8], [0xB8#8], [0x38#8], [0xF8#8], [0x78#8], [0xEA#8]] ∧
  (∀ (i : Instr) (f : Flag) (c : Bool) (s : State),
    (i, f, c) ∈ [(Instr.clc, Flag.carry, false), (.cld, .decimal, false), (.cli, .interruptDisable, false),
      (.clv, .overflow, false), (.sec, .carry, true), (.sed, .decimal, true), (.sei, .interruptDisable, true)] →
    ∃ q, exec i s = .next (s.setP q) ∧ getFlag f q = c ∧ ∀ g, g ≠ f → getFlag g q = getFlag g s.p) ∧
  ∀ s : State, exec .nop s = .next s

/-! Frames, over all instructions. -/

/-- Which instruction writes which register (the last column of R36's table): an instruction that leaves another value in
`A`, `X`, `Y`, `SP` or `PC` than it found is one of those listed there for it; none changes `CYC` or the Halted record. -/
def Obligations.RegisterWriters : Prop :=
  ∀ (i : Instr) (s t : State), exec i s = .next t →
    (t.a ≠ s.a → i.mnemonic ∈ [.adc, .sbc, .and, .ora, .eor, .lda, .pla, .txa, .tya] ∨
      (i.mnemonic ∈ [.asl, .lsr, .rol, .ror] ∧ i.form = .accumulator)) ∧
    (t.x ≠ s.x → i.mnemonic ∈ [.ldx, .tax, .tsx, .inx, .dex]) ∧
    (t.y ≠ s.y → i.mnemonic ∈ [.ldy, .tay, .iny, .dey]) ∧
    (t.sp ≠ s.sp → i.mnemonic ∈ [.txs, .pha, .php, .pla, .plp, .jsr, .rts, .brk, .rti]) ∧
    (t.pc ≠ s.pc →
      i.mnemonic ∈ [.bcc, .bcs, .beq, .bne, .bmi, .bpl, .bvc, .bvs, .jmp, .jsr, .rts, .rti, .brk]) ∧
    t.cyc = s.cyc ∧ t.halted = s.halted

/-- Which instruction writes which flag (the "set and cleared by" column of R14): an instruction that leaves another value
in a flag than it found is one of those listed there for it (for Z and N: BIT, PLP, RTI and the instructions that call
`SetZN`, R17). A flag operation and BRK leave every other flag, and the instructions that write none the whole status, as
it was. -/
def Obligations.FlagWriters : Prop :=
  ∀ (i : Instr) (s t : State), exec i s = .next t →
    (getFlag .carry t.p ≠ getFlag .carry s.p →
      i.mnemonic ∈ [.adc, .sbc, .asl, .lsr, .rol, .ror, .cmp, .cpx, .cpy, .sec, .clc, .plp, .rti]) ∧
    (getFlag .zero t.p ≠ getFlag .zero s.p → i.mnemonic ∈ writesZN) ∧
    (getFlag .interruptDisable t.p ≠ getFlag .interruptDisable s.p → i.mnemonic ∈ [.sei, .cli, .brk, .plp, .rti]) ∧
    (getFlag .decimal t.p ≠ getFlag .decimal s.p → i.mnemonic ∈ [.sed, .cld, .plp, .rti]) ∧
    (getFlag .breakBit t.p ≠ getFlag .breakBit s.p → i.mnemonic ∈ [.plp, .rti]) ∧
    (getFlag .unused t.p ≠ getFlag .unused s.p → i.mnemonic ∈ [.plp, .rti]) ∧
    (getFlag .overflow t.p ≠ getFlag .overflow s.p → i.mnemonic ∈ [.adc, .sbc, .bit, .clv, .plp, .rti]) ∧
    (getFlag .negative t.p ≠ getFlag .negative s.p → i.mnemonic ∈ writesZN) ∧
    (∀ f g, (i.mnemonic, f) ∈ [(.clc, Flag.carry), (.sec, .carry), (.cld, .decimal), (.sed, .decimal),
        (.cli, .interruptDisable), (.sei, .interruptDisable), (.brk, .interruptDisable), (.clv, .overflow)] →
      g ≠ f → getFlag g t.p = getFlag g s.p) ∧
    (i.mnemonic ∈ [.sta, .stx, .sty, .pha, .php, .txs, .jmp, .jsr, .rts, .nop, .bcc, .bcs, .beq, .bne, .bmi, .bpl, .bvc,
      .bvs] → t.p = s.p)

/-- An instruction that stores nothing (every load, compare, transfer, flag operation, branch and jump, and every register
form) leaves work RAM, the cartridge slot with its mapper registers and CHR RAM, the PPU memories, and every byte of the
CPU's memory as they were. -/
def Obligations.NonStoringInstructionsKeepMemory : Prop :=
  ∀ (i : Instr) (s t : State), writesMemory i = false → exec i s = .next t →
    t.ram = s.ram ∧ t.slot = s.slot ∧ t.ppu.oam = s.ppu.oam ∧ t.ppu.nt = s.ppu.nt ∧ t.ppu.pal = s.ppu.pal ∧
    ∀ a, peek a t = peek a s

/-- An instruction that stores to its operand, by where its effective address lies. In work RAM: every byte but that cell,
through its mirrors, is as before. Elsewhere: work RAM and every byte below 0x8000 are as before, and below 0x8000 the
store changes no byte at all; from 0x8000 on it changes neither the cartridge nor CHR RAM (a mapper register may move a
bank). The PPU memories change only by a store to a PPU register or to 0x4014. -/
def Obligations.StoringInstructionsWriteOneCell : Prop :=
  ∀ (i : Instr) (ref : Ref) (s t : State), storesOperand i.mnemonic = true → i.form = .memory ref → exec i s = .next t →
    let ea := (resolve ref s).1
    (ea.toNat ≤ 0x1FFF → t.slot = s.slot ∧ ∀ a, sameRamCell ea a = false → peek a t = peek a s) ∧
    (0x1FFF < ea.toNat → t.ram = s.ram ∧ ∀ a, a.toNat < 0x8000 → peek a t = peek a s) ∧
    (0x1FFF < ea.toNat → ea.toNat < 0x8000 → ∀ a, peek a t = peek a s) ∧
    (0x8000 ≤ ea.toNat → t.cart = s.cart ∧ t.slot.map Slot.chrRam = s.slot.map Slot.chrRam) ∧
    (ea.toNat ≤ 0x1FFF ∨ 0x3FFF < ea.toNat → ea ≠ 0x4014#16 →
      t.ppu.oam = s.ppu.oam ∧ t.ppu.nt = s.ppu.nt ∧ t.ppu.pal = s.ppu.pal)

/-! Addressing. -/

/-- The effective addresses of the modes without a pointer (R163 to R168) and of the modes with one in page zero (R170,
R171; the non-wrapping pointer of indirect-Y is the spec's decision D15): zero-page indexing wraps within page zero,
16-bit indexing modulo 65536, and the pointer's high byte comes from the next address, 0x0100 after 0x00FF. None of
them changes the state. The operand read (R160, R162): an immediate operand is the byte after the opcode itself, with no
further load; in a memory mode it is the one load at the effective address. -/
def Obligations.EffectiveAddresses : Prop :=
  ∀ (b : Byte) (w : Addr) (s : State),
    (resolve (.zeroPage b) s).1.toNat = b.toNat ∧
    (resolve (.zeroPageX b) s).1.toNat = (b.toNat + s.x.toNat) % 256 ∧
    (resolve (.zeroPageY b) s).1.toNat = (b.toNat + s.y.toNat) % 256 ∧
    (resolve (.absolute w) s).1 = w ∧
    (resolve (.absoluteX w) s).1.toNat = (w.toNat + s.x.toNat) % 65536 ∧
    (resolve (.absoluteY w) s).1.toNat = (w.toNat + s.y.toNat) % 65536 ∧
    (let z := (b.toNat + s.x.toNat) % 256
     (resolve (.indirectX b) s).1 = wordOf (s.ram.read (z + 1)) (s.ram.read z)) ∧
    (resolve (.indirectY b) s).1.toNat =
      ((wordOf (s.ram.read (b.toNat + 1)) (s.ram.read b.toNat)).toNat + s.y.toNat) % 65536 ∧
    (∀ ref, (resolve ref s).2 = s ∧ readOperand (.memory ref) s = load (resolve ref s).1 s) ∧
    readOperand (.immediate b) s = (b, s)

/-! The Bus. -/

/-- The work RAM window (R43): a load answers the cell that the low eleven address bits name; a store there is seen by a
load of the same cell through any mirror, and by no load of another cell; neither access changes anything but that
cell. -/
def Obligations.RamIsMirrored : Prop :=
  ∀ (a b : Addr) (v : Byte) (s : State), a.toNat ≤ 0x1FFF → b.toNat ≤ 0x1FFF →
    load b s = (s.ram.read (b.toNat % 2048), s) ∧
    (load b (store a v s)).1 = (if a.toNat % 2048 = b.toNat % 2048 then v else (load b s).1) ∧
    store a v s = s.setRam (store a v s).ram

/-- What a load answers and can do in the windows without cells of their own (R45, R46, R49, R72, R102, R106, R109, R112,
R120; that 0x4014 starts the DMA is the spec's decision D17, the register numbers, the placeholder and the OAM port its
decisions D19, D21, D26, the cartridge window below 0x8000 its decision D30). Only loads of PPU registers 2 and 7, at any
mirror, change anything. Registers 0, 1, 3, 5 and 6 answer 0; register 2 answers the status and clears the vblank flag and
the toggle; register 4 answers the OAM byte at `oamAddr`; register 7 answers the buffer below 0x3F00, and refills it, the
byte itself from 0x3F00 on, with the buffer kept, and moves `vramAddr`. From 0x4000 to 0x401F, and with a cartridge to
0x7FFF, loads answer 0 and stores change nothing, but for a store to 0x4014. -/
def Obligations.BusWindows : Prop :=
  ∀ (a : Addr) (v : Byte) (s : State),
    ((load a s).2 ≠ s → 0x2000 ≤ a.toNat ∧ a.toNat ≤ 0x3FFF ∧ (a.toNat % 8 = 2 ∨ a.toNat % 8 = 7)) ∧
    (0x2000 ≤ a.toNat → a.toNat ≤ 0x3FFF →
      (a.toNat % 8 ∈ [0, 1, 3, 5, 6] → load a s = (0x00#8, s)) ∧
      (a.toNat % 8 = 2 →
        load a s = (s.ppu.status, s.setPpu { s.ppu with status := s.ppu.status &&& 0x7F#8, w := false })) ∧
      (a.toNat % 8 = 4 → load a s = (s.ppu.oam.read s.ppu.oamAddr.toNat, s)) ∧
      (a.toNat % 8 = 7 →
        let m := vramLoad s.slot s.ppu s.ppu.vramAddr
        let next := s.ppu.vramAddr + (if s.ppu.ctrl.getLsbD 2 then 32#14 else 1#14)
        (s.ppu.vramAddr.toNat < 0x3F00 →
          load a s = (s.ppu.readBuf, s.setPpu { s.ppu with readBuf := m, vramAddr := next })) ∧
        (0x3F00 ≤ s.ppu.vramAddr.toNat → load a s = (m, s.setPpu { s.ppu with vramAddr := next })))) ∧
    ∀ sl, s.slot = some sl → 0x4000 ≤ a.toNat → a.toNat < 0x8000 →
      load a s = (0x00#8, s) ∧ (a ≠ 0x4014#16 → store a v s = s) ∧ (a = 0x4014#16 → store a v s = oamDma v s)

/-- The stack helpers (R19 to R22): a push stores at `0x0100 + SP` and then decrements, a pop increments and then loads, a
word is pushed high byte first and popped low byte first; and a byte, or a word, popped right after it was pushed comes
back, with `SP` as it was, whatever `SP` was. That the word round trip holds when `SP` wraps between its two bytes is R22's
own inference from R19 and R20; that `SP` is then as it was follows from the same two rules. -/
def Obligations.StackHelpers : Prop :=
  ∀ (v : Byte) (w : Addr) (s : State),
    push v s = (store (0x0100#16 + s.sp.setWidth 16) v s).setSp (s.sp - 1#8) ∧
    pop s = load (0x0100#16 + (s.sp + 1#8).setWidth 16) (s.setSp (s.sp + 1#8)) ∧
    pushWord w s = push (w.setWidth 8) (push ((w >>> 8).setWidth 8) s) ∧
    popWord s = ((pop (pop s).2).1 ++ (pop s).1, (pop (pop s).2).2) ∧
    (pop (push v s)).1 = v ∧ (pop (push v s)).2.sp = s.sp ∧
    (popWord (pushWord w s)).1 = w ∧ (popWord (pushWord w s)).2.sp = s.sp

/-! Mappers. -/

/-- M1's store port (R79, R80, R84; its layout is the spec's decision D31): a store below 0x8000 does nothing. From 0x8000
on, from an empty accumulator, five stores with bit 7 clear load their bits 0, the first one lowest, into the register
that bits 14:13 of the fifth address select, and change no other register and nothing else of the slot; a store with bit 7
set empties the accumulator and sets bits 3:2 of `control`, and keeps the bank registers. -/
def Obligations.SerialEngineLoadsARegister : Prop :=
  ∀ (sl : Slot) (r : M1Regs), sl.engine = .m1 r →
    (∀ (a : Addr) (v : Byte), a.toNat < 0x8000 → sl.cpuStore a v = sl) ∧
    (∀ (a0 a1 a2 a3 a : Addr) (b0 b1 b2 b3 b4 : Byte), r.shift = 0#5 → r.count = 0 →
      (∀ x ∈ [a0, a1, a2, a3, a], 0x8000 ≤ x.toNat) → (∀ b ∈ [b0, b1, b2, b3, b4], b.getLsbD 7 = false) →
      ∃ v : BitVec 5, v.getLsbD 0 = b0.getLsbD 0 ∧ v.getLsbD 1 = b1.getLsbD 0 ∧ v.getLsbD 2 = b2.getLsbD 0 ∧
        v.getLsbD 3 = b3.getLsbD 0 ∧ v.getLsbD 4 = b4.getLsbD 0 ∧
        fiveStores sl a0 a1 a2 a3 a b0 b1 b2 b3 b4 =
          { sl with
            engine := .m1
              (match (a.toNat / 8192) % 4 with
              | 0 => { r with control := v }
              | 1 => { r with chrBank0 := v }
              | 2 => { r with chrBank1 := v }
              | _ => { r with prgBank := v }) }) ∧
    ∀ (a : Addr) (v : Byte), 0x8000 ≤ a.toNat → v.getLsbD 7 = true →
      sl.cpuStore a v = { sl with engine := .m1 { r with shift := 0#5, count := 0, control := r.control ||| 0x0C#5 } }

/-- What the serial engine maps (R81, R82, R83; its layout is the spec's decision D31, the reductions modulo the data size
its decision D33): the PRG banks of each mode in both windows, the CHR banks of each mode, and the mirroring. -/
def Obligations.SerialEngineBanks : Prop :=
  ∀ (sl : Slot) (r : M1Regs) (c : Addr) (n : Nat), sl.engine = .m1 r → 0x8000 ≤ c.toNat → n < 0x2000 →
    let b := r.prgBank.toNat % 16
    let o := c.toNat % 16384
    let prg := fun k => sl.cart.prg.read k
    let size := sl.cart.prgBanks * 16384
    let pair := b - b % 2
    (r.control.getLsbD 3 = false →
      sl.cpuLoad c = prg (((if c.toNat < 0xC000 then pair else pair + 1) * 16384 + o) % size)) ∧
    (r.control.getLsbD 3 = true → r.control.getLsbD 2 = false →
      sl.cpuLoad c = if c.toNat < 0xC000 then prg o else prg ((b * 16384 + o) % size)) ∧
    (r.control.getLsbD 3 = true → r.control.getLsbD 2 = true →
      sl.cpuLoad c =
        if c.toNat < 0xC000 then prg ((b * 16384 + o) % size) else prg ((sl.cart.prgBanks - 1) * 16384 + o)) ∧
    (r.control.getLsbD 4 = false →
      sl.chrIndex n = ((r.chrBank0.toNat - r.chrBank0.toNat % 2) * 4096 + n) % sl.cart.chrSize) ∧
    (r.control.getLsbD 4 = true →
      sl.chrIndex n =
        if n < 4096 then (r.chrBank0.toNat * 4096 + n) % sl.cart.chrSize
        else (r.chrBank1.toNat * 4096 + (n - 4096)) % sl.cart.chrSize) ∧
    sl.mirroring =
      (match r.control.toNat % 4 with
      | 0 => .oneScreenLow
      | 1 => .oneScreenHigh
      | 2 => .vertical
      | _ => .horizontal)

/-- The engines without a serial port (R75, R76, R77, R86, R87, R89, R90; the layout of M2 and M3 is the spec's decision
D32). PRG: M0 and M3 mirror one bank and address more directly; the low window of M2 shows the selected bank modulo the
bank count, its high window the last bank. Stores from 0x8000 on: none of M0's changes anything, those of M2 and M3 select
the bank, and M3's move the CHR bank only. CHR: M0 and M2 index the data directly, M3 in 8 KB banks. The mirroring is the
cartridge's. -/
def Obligations.FixedAndDirectEngines : Prop :=
  ∀ (sl : Slot) (b v : Byte) (a c : Addr) (n : Nat), 0x8000 ≤ a.toNat → 0x8000 ≤ c.toNat → n < 0x2000 →
    (sl.engine = .m0 ∨ sl.engine = .m3 b →
      (sl.cart.prgBanks = 1 → sl.cpuLoad c = sl.cart.prg.read (c.toNat % 16384)) ∧
      (sl.cart.prgBanks ≠ 1 → sl.cpuLoad c = sl.cart.prg.read ((c.toNat - 0x8000) % (sl.cart.prgBanks * 16384)))) ∧
    (sl.engine = .m2 b →
      (c.toNat < 0xC000 → sl.cpuLoad c = sl.cart.prg.read (b.toNat % sl.cart.prgBanks * 16384 + c.toNat % 16384)) ∧
      (0xC000 ≤ c.toNat → sl.cpuLoad c = sl.cart.prg.read ((sl.cart.prgBanks - 1) * 16384 + c.toNat % 16384))) ∧
    (sl.engine = .m0 → sl.cpuStore a v = sl) ∧
    (sl.engine = .m2 b → sl.cpuStore a v = { sl with engine := .m2 v }) ∧
    (sl.engine = .m3 b → sl.cpuStore a v = { sl with engine := .m3 v } ∧ (sl.cpuStore a v).cpuLoad c = sl.cpuLoad c) ∧
    (sl.engine = .m0 ∨ sl.engine = .m2 b → sl.chrIndex n = n) ∧
    (sl.engine = .m3 b → sl.chrIndex n = (b.toNat * 8192 + n) % sl.cart.chrSize) ∧
    (sl.engine = .m0 ∨ sl.engine = .m2 b ∨ sl.engine = .m3 b → sl.mirroring = sl.cart.mirroring)

/-- CHR RAM and CHR ROM (R73; that stores to CHR ROM are dropped is the spec's decision D36): without CHR banks, pattern
memory is 8 KB of CHR RAM, and a store writes the one cell that the engine's translation names, changing nothing else of
the slot; with CHR banks, it is the cartridge's CHR data, and a store leaves the slot as it was. A load answers the cell
that the same translation names. -/
def Obligations.ChrMemory : Prop :=
  ∀ (sl : Slot) (n : Nat) (v : Byte),
    (sl.cart.chrBanks = 0 →
      sl.cart.chrSize = 8192 ∧ sl.chrLoad n = sl.chrRam.read (sl.chrIndex n) ∧
      ∃ ram, sl.chrStore n v = { sl with chrRam := ram } ∧ Puts sl.chrRam ram (sl.chrIndex n) v) ∧
    (sl.cart.chrBanks ≠ 0 →
      sl.cart.chrSize = sl.cart.chrBanks * 8192 ∧ sl.chrLoad n = sl.cart.chr.read (sl.chrIndex n) ∧
      sl.chrStore n v = sl)

/-- Every translation stays inside the cartridge's data (R73, R54; the spec's decision D33): in a well-formed slot, of any
engine with any register contents, a CPU address from 0x8000 on names a byte of PRG and a pattern address names a cell
of the CHR data. -/
def Obligations.MapperOffsetsAreInRange : Prop :=
  ∀ sl : Slot, sl.wf = true →
    (∀ a : Addr, 0x8000 ≤ a.toNat → sl.prgIndex a < sl.cart.prgBanks * 16384) ∧
    ∀ n, n < 0x2000 → sl.chrIndex n < sl.cart.chrSize

/-! The PPU interface. -/

/-- Stores to the PPU registers, at any of their mirrors (R44, R103 to R105, R107 to R111, R113, R114; the numbering
and the functions D0 does not name are the spec's decisions D19 and D21 to D23, D26): which latch each writes, that
register 2 discards, that the OAM and VRAM data ports write one cell and move their address, and that nothing else
changes. The VRAM cell is, by the address: a nametable cell, a palette cell, a cell of CHR RAM, or, with CHR ROM, none
(R117; the spec's decisions D24 and D36). Without a cartridge the mirroring is a free value and a pattern store is
dropped: log entry 3. -/
def Obligations.PpuRegisterStores : Prop :=
  ∀ (a : Addr) (v : Byte) (s : State), 0x2000 ≤ a.toNat → a.toNat ≤ 0x3FFF →
    let t := store a v s
    let va := s.ppu.vramAddr
    (a.toNat % 8 = 0 → t = s.setPpu { s.ppu with ctrl := v }) ∧
    (a.toNat % 8 = 1 → t = s.setPpu { s.ppu with mask := v }) ∧
    (a.toNat % 8 = 2 → t = s) ∧
    (a.toNat % 8 = 3 → t = s.setPpu { s.ppu with oamAddr := v }) ∧
    (a.toNat % 8 = 4 → ∃ oam, t = s.setPpu { s.ppu with oam := oam, oamAddr := s.ppu.oamAddr + 1#8 } ∧
      Puts s.ppu.oam oam s.ppu.oamAddr.toNat v) ∧
    (a.toNat % 8 = 5 → s.ppu.w = false → t = s.setPpu { s.ppu with scrollX := v, w := true }) ∧
    (a.toNat % 8 = 5 → s.ppu.w = true → t = s.setPpu { s.ppu with scrollY := v, w := false }) ∧
    (a.toNat % 8 = 6 → ∃ na, t = s.setPpu { s.ppu with vramAddr := na, w := !s.ppu.w } ∧
      na.toNat = if s.ppu.w then va.toNat / 256 * 256 + v.toNat else v.toNat % 64 * 256 + va.toNat % 256) ∧
    (a.toNat % 8 = 7 →
      t = (s.setSlot t.slot).setPpu { s.ppu with nt := t.ppu.nt, pal := t.ppu.pal, vramAddr := t.ppu.vramAddr } ∧
      t.ppu.vramAddr.toNat = (va.toNat + (if s.ppu.ctrl.getLsbD 2 then 32 else 1)) % 0x4000 ∧
      (0x2000 ≤ va.toNat → va.toNat < 0x3F00 →
        t.slot = s.slot ∧ t.ppu.pal = s.ppu.pal ∧ Puts s.ppu.nt t.ppu.nt (ntIndex (mirroringOf s.slot) va) v) ∧
      (0x3F00 ≤ va.toNat → t.slot = s.slot ∧ t.ppu.nt = s.ppu.nt ∧ Puts s.ppu.pal t.ppu.pal (palIndex va) v) ∧
      (va.toNat < 0x2000 → t.ppu.nt = s.ppu.nt ∧ t.ppu.pal = s.ppu.pal ∧ (s.slot = none → t.slot = none) ∧
        ∀ sl, s.slot = some sl →
          (sl.cart.chrBanks ≠ 0 → t.slot = s.slot) ∧
          (sl.cart.chrBanks = 0 → ∃ ram, t.slot = some { sl with chrRam := ram } ∧
            Puts sl.chrRam ram (sl.chrIndex va.toNat) v)))

/-- VRAM address and data through registers 6 and 7 (R111 to R114; the register numbers, the width and the palette base are
the spec's decisions D19, D23 and D24): two writes to register 6 from the cleared toggle set the address, six bits of the
high byte kept, and clear the toggle; then a read of register 7 answers, below the palette, the old buffer, and refills it
with the byte at the address; in the palette, the byte at the address, with the buffer kept. It moves the address by one
or 32 modulo 0x4000. -/
def Obligations.VramAddressAndBufferedRead : Prop :=
  ∀ (s : State) (hi lo : Byte), s.ppu.w = false →
    let t := store 0x2006#16 lo (store 0x2006#16 hi s)
    let r := load 0x2007#16 t
    let m := vramLoad s.slot s.ppu t.ppu.vramAddr
    t = s.setPpu { s.ppu with vramAddr := t.ppu.vramAddr } ∧ t.ppu.vramAddr.toNat = hi.toNat % 64 * 256 + lo.toNat ∧
    r.2.ppu.vramAddr.toNat = (t.ppu.vramAddr.toNat + (if s.ppu.ctrl.getLsbD 2 then 32 else 1)) % 0x4000 ∧
    (t.ppu.vramAddr.toNat < 0x3F00 → r.1 = s.ppu.readBuf ∧ r.2.ppu.readBuf = m) ∧
    (0x3F00 ≤ t.ppu.vramAddr.toNat → r.1 = m ∧ r.2.ppu.readBuf = s.ppu.readBuf)

/-- The VRAM address map (R116 to R119; the boundaries and the nametable layout are the spec's decision D24). A load reads
pattern memory through the Mapper below 0x2000, nametable RAM from there to 0x3EFF, palette RAM from 0x3F00 on. The
nametable cell, from the address modulo 4096: vertical mirroring keeps its low eleven bits, horizontal its low ten with
bit 11 above them, the one-screen modes its low ten in the lower or the upper half. The palette cell: offsets 0x10, 0x14,
0x18 and 0x1C name the cells 16 below, every other offset its own, and the 32 cells repeat. The mirroring is the active
Mapper's (without a cartridge both it and pattern memory are free values: log entry 3). -/
def Obligations.VramAddressMap : Prop :=
  ∀ (slot : Option Slot) (u : Ppu) (a : VAddr),
    (∀ sl, slot = some sl → mirroringOf slot = sl.mirroring ∧
      (a.toNat < 0x2000 → vramLoad slot u a = sl.chrLoad a.toNat)) ∧
    (0x2000 ≤ a.toNat → a.toNat < 0x3F00 → vramLoad slot u a = u.nt.read (ntIndex (mirroringOf slot) a)) ∧
    (0x3F00 ≤ a.toNat → vramLoad slot u a = u.pal.read (palIndex a)) ∧
    ntIndex .vertical a = a.toNat % 4096 % 2048 ∧
    ntIndex .horizontal a = a.toNat % 4096 / 2048 * 1024 + a.toNat % 1024 ∧
    ntIndex .oneScreenLow a = a.toNat % 1024 ∧
    ntIndex .oneScreenHigh a = 1024 + a.toNat % 1024 ∧
    palIndex a = (if a.toNat % 32 ∈ [0x10, 0x14, 0x18, 0x1C] then a.toNat % 32 - 16 else a.toNat % 32)

/-- OAM DMA (R125): 256 ordinary loads from the page, each stored at the current OAM address, which advances; then the
signal. From any page, `oamAddr` ends where it began; from a page of work RAM, byte `i` of the page, in its mirror, lands
at OAM cell `oamAddr + i` modulo 256, and nothing else changes. -/
def Obligations.OamDmaCopiesAPage : Prop :=
  ∀ (page : Byte) (s : State),
    (let t := (List.range 256).foldl
        (fun u i =>
          let r := load (page ++ BitVec.ofNat 8 i) u
          r.2.setPpu { r.2.ppu with
            oam := r.2.ppu.oam.write r.2.ppu.oamAddr.toNat r.1, oamAddr := r.2.ppu.oamAddr + 1#8 }) s
     oamDma page s = t.setPpu { t.ppu with dmaDone := true }) ∧
    (oamDma page s).ppu.oamAddr = s.ppu.oamAddr ∧ (oamDma page s).ppu.dmaDone = true ∧
    (page.toNat < 0x20 →
      (∀ i : Byte, (oamDma page s).ppu.oam.read (s.ppu.oamAddr + i).toNat =
        s.ram.read ((page.toNat % 8) * 256 + i.toNat)) ∧
      oamDma page s = s.setPpu { s.ppu with oam := (oamDma page s).ppu.oam, dmaDone := true })

/-- `PpuTick()` (R128 to R130; the geometry is the spec's decision D27): the position advances by one within a frame of
89342 cycles; arriving at (241, 1) sets the vblank flag and, with `ctrl[7]`, requests an NMI; arriving at (261, 1)
clears the flag and signals a new frame; every other tick changes the position only. -/
def Obligations.PpuTickAdvancesTheFrame : Prop :=
  ∀ u : Ppu, u.wf = true →
    framePosition u.tick = (framePosition u + 1) % 89342 ∧
    (framePosition u.tick = 241 * 341 + 1 →
      u.tick = { u with
        scanline := 241, dot := 1, status := u.status ||| 0x80#8
        nmiRequest := u.nmiRequest || u.ctrl.getLsbD 7 }) ∧
    (framePosition u.tick = 261 * 341 + 1 →
      u.tick = { u with scanline := 261, dot := 1, status := u.status &&& 0x7F#8, newFrame := true }) ∧
    (framePosition u.tick ≠ 241 * 341 + 1 → framePosition u.tick ≠ 261 * 341 + 1 →
      u.tick = { u with scanline := u.tick.scanline, dot := u.tick.dot })

/-! Host operations. -/

/-- `reset()` (R290): `PC` from the reset vector, `SP`, `P` and `CYC` as stated, Halted left (the spec's decision D11);
nothing is pushed and everything else is as before. The state after construction and `reset()` is `State.reset` (R35;
its values are log entries 4 and 10). -/
def Obligations.ResetLeavesTheStatedValues : Prop :=
  (∀ s : State, resetBlock s =
    { s with pc := vectorWord s 0xFFFC#16, sp := 0xFD#8, p := 0x24#8, cyc := 0, halted := none }) ∧
  resetBlock State.constructed = State.reset

/-- `nmi()` on a running CPU (R265): the address of the next instruction and the live status, unmodified, are pushed, `SP`
falls by three, `P.I` is set, `PC` comes from the NMI vector, `CYC` rises by 7, and nothing else changes, whatever `P.I`
was. That the pushed status is the live one, unmodified, is the spec's decision D43 (R273; log entry 11). -/
def Obligations.NmiEntry : Prop :=
  ∀ s : State, s.halted = none →
    ∃ ram, nmi s = { s with
        ram := ram, sp := s.sp - 3#8, p := s.p ||| 0x04#8, pc := vectorWord s 0xFFFA#16, cyc := s.cyc + 7 } ∧
      PushedFrame s.sp s.pc s.p s.ram ram

/-- `irq()` on a running CPU (R268, R271; the operation is the spec's decision D12, and having it is log entry 13): no
effect with `P.I` set; otherwise as `nmi()`, with bit 4 clear in the pushed status and the IRQ vector. -/
def Obligations.IrqEntry : Prop :=
  ∀ s : State, s.halted = none →
    (getFlag .interruptDisable s.p = true → irq s = s) ∧
    (getFlag .interruptDisable s.p = false →
      ∃ ram, irq s = { s with
          ram := ram, sp := s.sp - 3#8, p := s.p ||| 0x04#8, pc := vectorWord s 0xFFFE#16, cyc := s.cyc + 7 } ∧
        PushedFrame s.sp s.pc (s.p &&& 0xEF#8) s.ram ram)

/-- `InstallCartridge` (R66 to R70; the checks are the spec's decision D34, the meaning of a clear mirroring bit its decision
D35, the engines its decision D29). A bad magic, no PRG bank, a short image or a mapper id above 3 is refused (which error
is reported when several checks fail is log entry 18); a byte the image does not have is taken as 0 here, which decides
nothing, since such an image is short. Otherwise the slot becomes the new cartridge, and nothing else changes: the counts,
the id and the mirroring of the header, PRG right after the header, CHR right after PRG, the engine of the id with its
power-on registers (R74, R78, R85, R88), and CHR RAM all 0 (R73). -/
def Obligations.InstallCartridgeChecksTheImage : Prop :=
  ∀ (img : List Byte) (s : State),
    let byte := fun k => img.getD k 0x00#8
    let prgBanks := (byte 4).toNat
    let chrBanks := (byte 5).toNat
    let id := (byte 7).toNat / 16 * 16 + (byte 6).toNat / 16
    ((img.take 4 ≠ [0x4E#8, 0x45#8, 0x53#8, 0x1A#8] ∨ prgBanks = 0 ∨
      img.length < 16 + prgBanks * 16384 + chrBanks * 8192 ∨ 3 < id) ↔ ∃ e, installCartridge img s = .refused e) ∧
    ∀ t, installCartridge img s = .installed t →
      ∃ sl, t = s.setSlot (some sl) ∧ sl.cart.prgBanks = prgBanks ∧ sl.cart.chrBanks = chrBanks ∧
        sl.cart.ramBanks = (byte 8).toNat ∧ sl.cart.mapperId.toNat = id ∧
        sl.cart.mirroring = (if (byte 6).toNat % 2 = 1 then .vertical else .horizontal) ∧
        (∀ k, k < prgBanks * 16384 → sl.cart.prg.read k = byte (16 + k)) ∧
        (∀ k, k < chrBanks * 8192 → sl.cart.chr.read k = byte (16 + prgBanks * 16384 + k)) ∧
        (∀ k, sl.chrRam.read k = 0x00#8) ∧
        sl.engine =
          (match id with
          | 0 => .m0
          | 1 => .m1 { shift := 0#5, count := 0, control := 0x0C#5, chrBank0 := 0#5, chrBank1 := 0#5, prgBank := 0#5 }
          | 2 => .m2 0x00#8
          | _ => .m3 0x00#8)

/-- The reference Driver iteration around a step that took `c` cycles (R302; the order is the spec's decision D13, the stall
its decision D18, the vblank position and the NMI gate its decision D27, all log entry 5): a DMA adds 513 stall cycles to
`CYC`; the PPU runs three ticks per cycle; then, if an NMI request is pending, it is cleared, `nmi()` is called once, and
the PPU runs 21 ticks more; last the new-frame signal is cleared. The request is pending exactly when it was before the
step, or NMIs are enabled and those ticks pass the vblank start. In all, the PPU position moves by three for each cycle
that `CYC` gained. -/
def Obligations.DriverIterationDuties : Prop :=
  ∀ (s u : State) (c : Nat), s.wf = true → s.halted = none → step s = .next u → u.cyc = s.cyc + c →
    let stall := if u.ppu.dmaDone then 513 else 0
    let v := ppuTicks (3 * (c + stall)) ((u.setPpu { u.ppu with dmaDone := false }).setCyc (u.cyc + stall))
    (v.ppu.nmiRequest = true ↔ s.ppu.nmiRequest = true ∨
      (u.ppu.ctrl.getLsbD 7 = true ∧
        ∃ k, k < 3 * (c + stall) ∧ (framePosition s.ppu + 1 + k) % 89342 = 241 * 341 + 1)) ∧
    ∃ t d, driverIteration s = .next t ∧ t.cyc = s.cyc + d ∧
      framePosition t.ppu = (framePosition s.ppu + 3 * d) % 89342 ∧
      (v.ppu.nmiRequest = false → d = c + stall ∧ t = v.setPpu { v.ppu with newFrame := false }) ∧
      (v.ppu.nmiRequest = true → d = c + stall + 7 ∧
        let w := ppuTicks 21 (nmi (v.setPpu { v.ppu with nmiRequest := false }))
        t = w.setPpu { w.ppu with newFrame := false })

/-- After a Driver iteration of a well-formed block with no NMI request pending, the three PPU signals are all false (R302,
R304; the reference iteration is the spec's decision D13). -/
def Obligations.DriverIterationClearsTheSignals : Prop :=
  ∀ s t : State, s.wf = true → s.halted = none → s.ppu.nmiRequest = false → driverIteration s = .next t →
    t.ppu.nmiRequest = false ∧ t.ppu.newFrame = false ∧ t.ppu.dmaDone = false
end

