-- ==== Sys2Proof/Laws/Memory.lean ====
section
/-! SUPPORT. Sys2Proof/Laws/Memory.lean: reading after writing, the canonical form, and equality of canonical memories. -/

namespace Sys2Proof.Machine.Memory

theorem read_erase (m : Memory) (k j : Nat) : (erase m k).read j = if j = k then unlisted else m.read j := by
  induction m with
  | nil => simp [erase, read]
  | cons e m ih =>
    obtain ⟨i, v⟩ := e
    by_cases h : i = k
    · subst h
      simp only [erase, if_true, ih, read]
      by_cases hj : j = i
      · simp [hj]
      · simp [hj, Ne.symm hj]
    · simp only [erase, h, if_false, read, ih]
      by_cases hj : i = j
      · subst hj
        simp [h]
      · simp [hj]

theorem read_insert (m : Memory) (k : Nat) (v : Byte) (j : Nat) :
    (insert m k v).read j = if j = k then v else m.read j := by
  induction m with
  | nil =>
    by_cases h : j = k
    · simp [insert, read, h]
    · simp [insert, read, h, Ne.symm h]
  | cons e m ih =>
    obtain ⟨i, u⟩ := e
    by_cases hlt : k < i
    · by_cases h : j = k
      · simp [insert, hlt, read, h]
      · simp [insert, hlt, read, h, Ne.symm h]
    · by_cases hk : k = i
      · subst hk
        by_cases h : j = k
        · simp [insert, read, h]
        · simp [insert, read, h, Ne.symm h]
      · simp only [insert, hlt, hk, if_false, read, ih]
        by_cases hj : i = j
        · subst hj
          simp [Ne.symm hk]
        · simp [hj]

/-- A read after a write: the value at the cell written, the old byte everywhere else. -/
theorem read_write (m : Memory) (k : Nat) (v : Byte) (j : Nat) :
    (m.write k v).read j = if j = k then v else m.read j := by
  unfold write
  split
  · next h => rw [read_erase, h]
  · exact read_insert m k v j

@[simp] theorem read_write_same (m : Memory) (k : Nat) (v : Byte) : (m.write k v).read k = v := by
  simp [read_write]

theorem read_write_other (m : Memory) {k j : Nat} (v : Byte) (h : j ≠ k) : (m.write k v).read j = m.read j := by
  simp [read_write, h]

theorem wfFrom_mono {lo lo' : Nat} (hl : lo ≤ lo') {m : Memory} (h : wfFrom lo' m = true) : wfFrom lo m = true := by
  cases m with
  | nil => rfl
  | cons e m =>
    obtain ⟨k, v⟩ := e
    simp only [wfFrom, Bool.and_eq_true, decide_eq_true_eq] at h ⊢
    exact ⟨⟨by omega, h.1.2⟩, h.2⟩

theorem wfFrom_erase {lo : Nat} {m : Memory} (k : Nat) (h : wfFrom lo m = true) : wfFrom lo (erase m k) = true := by
  induction m generalizing lo with
  | nil => rfl
  | cons e m ih =>
    obtain ⟨i, v⟩ := e
    simp only [wfFrom, Bool.and_eq_true, decide_eq_true_eq] at h
    by_cases hi : i = k
    · simp only [erase, hi, if_true]
      exact wfFrom_mono (by omega) (ih (hi ▸ h.2))
    · simp only [erase, hi, if_false, wfFrom, Bool.and_eq_true, decide_eq_true_eq]
      exact ⟨h.1, ih h.2⟩

theorem wfFrom_insert {lo : Nat} {m : Memory} {k : Nat} {v : Byte} (hk : lo ≤ k) (hv : v ≠ unlisted)
    (h : wfFrom lo m = true) : wfFrom lo (insert m k v) = true := by
  induction m generalizing lo with
  | nil => simp [insert, wfFrom, hk, hv]
  | cons e m ih =>
    obtain ⟨i, u⟩ := e
    simp only [wfFrom, Bool.and_eq_true, decide_eq_true_eq] at h
    by_cases hlt : k < i
    · simp only [insert, hlt, if_true, wfFrom, Bool.and_eq_true, decide_eq_true_eq]
      exact ⟨⟨hk, hv⟩, ⟨⟨by omega, h.1.2⟩, h.2⟩⟩
    · by_cases hi : k = i
      · subst hi
        simp only [insert, lt_irrefl, if_false, if_true, wfFrom, Bool.and_eq_true, decide_eq_true_eq]
        exact ⟨⟨hk, hv⟩, h.2⟩
      · simp only [insert, hlt, hi, if_false, wfFrom, Bool.and_eq_true, decide_eq_true_eq]
        exact ⟨h.1, ih (by omega) h.2⟩

/-- A write keeps the canonical form. -/
theorem wf_write {m : Memory} (k : Nat) (v : Byte) (h : m.wf = true) : (m.write k v).wf = true := by
  unfold write
  split
  · exact wfFrom_erase k h
  · next hv => exact wfFrom_insert (Nat.zero_le k) hv h

theorem within_erase {size : Nat} {m : Memory} (k : Nat) (h : within size m = true) :
    within size (erase m k) = true := by
  induction m with
  | nil => rfl
  | cons e m ih =>
    obtain ⟨i, v⟩ := e
    simp only [within, Bool.and_eq_true, decide_eq_true_eq] at h
    by_cases hi : i = k
    · simp only [erase, hi, if_true]
      exact ih h.2
    · simp only [erase, hi, if_false, within, Bool.and_eq_true, decide_eq_true_eq]
      exact ⟨h.1, ih h.2⟩

theorem within_insert {size : Nat} {m : Memory} {k : Nat} {v : Byte} (hk : k < size) (h : within size m = true) :
    within size (insert m k v) = true := by
  induction m with
  | nil => simp [insert, within, hk]
  | cons e m ih =>
    obtain ⟨i, u⟩ := e
    have h' := h
    simp only [within, Bool.and_eq_true, decide_eq_true_eq] at h
    unfold insert
    split
    · simp only [within, Bool.and_eq_true, decide_eq_true_eq]
      exact ⟨hk, h⟩
    · split
      · simp only [within, Bool.and_eq_true, decide_eq_true_eq]
        exact ⟨hk, h.2⟩
      · simp only [within, Bool.and_eq_true, decide_eq_true_eq]
        exact ⟨h.1, ih h.2⟩

theorem within_write {size : Nat} {m : Memory} {k : Nat} {v : Byte} (hk : k < size) (h : within size m = true) :
    within size (m.write k v) = true := by
  unfold write
  split
  · exact within_erase k h
  · exact within_insert hk h

/-- A write inside a memory keeps it canonical. -/
theorem canonical_write {size : Nat} {m : Memory} {k : Nat} {v : Byte} (hk : k < size)
    (h : canonical size m = true) : canonical size (m.write k v) = true := by
  simp only [canonical, Bool.and_eq_true] at h ⊢
  exact ⟨wf_write k v h.1, within_write hk h.2⟩

@[simp] theorem canonical_nil (size : Nat) : canonical size [] = true := rfl

/-- The memory of a byte string is in canonical form. -/
theorem wfFrom_ofBytes (k : Nat) (l : List Byte) : wfFrom k (ofBytes k l) = true := by
  induction l generalizing k with
  | nil => rfl
  | cons v l ih =>
    simp only [ofBytes]
    split
    · exact wfFrom_mono (Nat.le_succ k) (ih (k + 1))
    · next hv =>
      simp only [wfFrom, Bool.and_eq_true, decide_eq_true_eq]
      exact ⟨⟨le_refl k, hv⟩, ih (k + 1)⟩

theorem within_ofBytes {size k : Nat} {l : List Byte} (h : k + l.length ≤ size) : within size (ofBytes k l) = true := by
  induction l generalizing k with
  | nil => rfl
  | cons v l ih =>
    simp only [List.length_cons] at h
    simp only [ofBytes]
    split
    · exact ih (by omega)
    · simp only [within, Bool.and_eq_true, decide_eq_true_eq]
      exact ⟨by omega, ih (by omega)⟩

theorem canonical_ofBytes {size : Nat} {l : List Byte} (h : l.length ≤ size) : canonical size (ofBytes 0 l) = true := by
  simp only [canonical, Bool.and_eq_true]
  exact ⟨wfFrom_ofBytes 0 l, within_ofBytes (by omega)⟩

theorem read_ofBytes_of_lt {k j : Nat} (l : List Byte) (h : j < k) : (ofBytes k l).read j = unlisted := by
  induction l generalizing k with
  | nil => rfl
  | cons v l ih =>
    simp only [ofBytes]
    split
    · exact ih (by omega)
    · have hk : k ≠ j := by omega
      simp only [read, hk, if_false]
      exact ih (by omega)

/-- The memory of a byte string reads as the string. -/
theorem read_ofBytes (k i : Nat) (l : List Byte) : (ofBytes k l).read (k + i) = l.getD i unlisted := by
  induction l generalizing k i with
  | nil => rfl
  | cons v l ih =>
    cases i with
    | zero =>
      simp only [ofBytes]
      split
      · next h =>
        rw [read_ofBytes_of_lt l (by omega), h]
        rfl
      · simp [read]
    | succ i =>
      have e : k + (i + 1) = (k + 1) + i := by omega
      simp only [ofBytes]
      split
      · rw [e, ih (k + 1) i]
        rfl
      · have hk : k ≠ k + (i + 1) := by omega
        simp only [read, hk, if_false]
        rw [e, ih (k + 1) i]
        rfl

theorem read_of_wfFrom_lt {lo j : Nat} {m : Memory} (h : wfFrom lo m = true) (hj : j < lo) : m.read j = unlisted := by
  induction m generalizing lo with
  | nil => rfl
  | cons e m ih =>
    obtain ⟨k, v⟩ := e
    simp only [wfFrom, Bool.and_eq_true, decide_eq_true_eq] at h
    have hk : k ≠ j := by omega
    simp only [read, hk, if_false]
    exact ih h.2 (by omega)

theorem eq_of_read_eq_from {lo : Nat} {m n : Memory} (hm : wfFrom lo m = true) (hn : wfFrom lo n = true)
    (h : ∀ j, m.read j = n.read j) : m = n := by
  induction m generalizing lo n with
  | nil =>
    cases n with
    | nil => rfl
    | cons e n =>
      obtain ⟨k, v⟩ := e
      simp only [wfFrom, Bool.and_eq_true, decide_eq_true_eq] at hn
      have hk := h k
      simp only [read, if_true] at hk
      exact absurd hk.symm hn.1.2
  | cons e m ih =>
    obtain ⟨k, v⟩ := e
    simp only [wfFrom, Bool.and_eq_true, decide_eq_true_eq] at hm
    cases n with
    | nil =>
      have hk := h k
      simp only [read, if_true] at hk
      exact absurd hk hm.1.2
    | cons e' n =>
      obtain ⟨i, u⟩ := e'
      simp only [wfFrom, Bool.and_eq_true, decide_eq_true_eq] at hn
      have hki : k = i := by
        by_contra hne
        rcases Nat.lt_or_gt_of_ne hne with hlt | hlt
        · have hk := h k
          simp only [read, if_true, if_neg (Ne.symm hne)] at hk
          rw [read_of_wfFrom_lt hn.2 (by omega)] at hk
          exact hm.1.2 hk
        · have hk := h i
          simp only [read, if_true, if_neg hne] at hk
          rw [read_of_wfFrom_lt hm.2 (by omega)] at hk
          exact hn.1.2 hk.symm
      subst hki
      have hv : v = u := by simpa [read] using h k
      subst hv
      congr 1
      refine ih hm.2 hn.2 fun j => ?_
      by_cases hj : k = j
      · subst hj
        rw [read_of_wfFrom_lt hm.2 (by omega), read_of_wfFrom_lt hn.2 (by omega)]
      · simpa [read, hj] using h j

/-- Equal memories are equal data: two canonical memories that read the same everywhere are the same list. -/
theorem eq_of_read_eq {m n : Memory} (hm : m.wf = true) (hn : n.wf = true) (h : ∀ j, m.read j = n.read j) : m = n :=
  eq_of_read_eq_from hm hn h

end Sys2Proof.Machine.Memory
end

