-- ==== Sys2Proof/Laws/State.lean ====
section
/-! SUPPORT. Sys2Proof/Laws/State.lean: one lemma for each field under each setter of `State`, so that no proof unfolds a
record update; and the algebra of the setters. -/

namespace Sys2Proof.Machine

@[simp] theorem State.setA_a (s : State) (v : Byte) : (s.setA v).a = v := rfl
@[simp] theorem State.setA_x (s : State) (v : Byte) : (s.setA v).x = s.x := rfl
@[simp] theorem State.setA_y (s : State) (v : Byte) : (s.setA v).y = s.y := rfl
@[simp] theorem State.setA_sp (s : State) (v : Byte) : (s.setA v).sp = s.sp := rfl
@[simp] theorem State.setA_p (s : State) (v : Byte) : (s.setA v).p = s.p := rfl
@[simp] theorem State.setA_pc (s : State) (v : Byte) : (s.setA v).pc = s.pc := rfl
@[simp] theorem State.setA_cyc (s : State) (v : Byte) : (s.setA v).cyc = s.cyc := rfl
@[simp] theorem State.setA_halted (s : State) (v : Byte) : (s.setA v).halted = s.halted := rfl
@[simp] theorem State.setA_ram (s : State) (v : Byte) : (s.setA v).ram = s.ram := rfl
@[simp] theorem State.setA_slot (s : State) (v : Byte) : (s.setA v).slot = s.slot := rfl
@[simp] theorem State.setA_ppu (s : State) (v : Byte) : (s.setA v).ppu = s.ppu := rfl
@[simp] theorem State.setA_setA (s : State) (u v : Byte) : (s.setA u).setA v = s.setA v := rfl
@[simp] theorem State.setA_self (s : State) : s.setA s.a = s := rfl

@[simp] theorem State.setX_a (s : State) (v : Byte) : (s.setX v).a = s.a := rfl
@[simp] theorem State.setX_x (s : State) (v : Byte) : (s.setX v).x = v := rfl
@[simp] theorem State.setX_y (s : State) (v : Byte) : (s.setX v).y = s.y := rfl
@[simp] theorem State.setX_sp (s : State) (v : Byte) : (s.setX v).sp = s.sp := rfl
@[simp] theorem State.setX_p (s : State) (v : Byte) : (s.setX v).p = s.p := rfl
@[simp] theorem State.setX_pc (s : State) (v : Byte) : (s.setX v).pc = s.pc := rfl
@[simp] theorem State.setX_cyc (s : State) (v : Byte) : (s.setX v).cyc = s.cyc := rfl
@[simp] theorem State.setX_halted (s : State) (v : Byte) : (s.setX v).halted = s.halted := rfl
@[simp] theorem State.setX_ram (s : State) (v : Byte) : (s.setX v).ram = s.ram := rfl
@[simp] theorem State.setX_slot (s : State) (v : Byte) : (s.setX v).slot = s.slot := rfl
@[simp] theorem State.setX_ppu (s : State) (v : Byte) : (s.setX v).ppu = s.ppu := rfl
@[simp] theorem State.setX_setX (s : State) (u v : Byte) : (s.setX u).setX v = s.setX v := rfl
@[simp] theorem State.setX_self (s : State) : s.setX s.x = s := rfl

@[simp] theorem State.setY_a (s : State) (v : Byte) : (s.setY v).a = s.a := rfl
@[simp] theorem State.setY_x (s : State) (v : Byte) : (s.setY v).x = s.x := rfl
@[simp] theorem State.setY_y (s : State) (v : Byte) : (s.setY v).y = v := rfl
@[simp] theorem State.setY_sp (s : State) (v : Byte) : (s.setY v).sp = s.sp := rfl
@[simp] theorem State.setY_p (s : State) (v : Byte) : (s.setY v).p = s.p := rfl
@[simp] theorem State.setY_pc (s : State) (v : Byte) : (s.setY v).pc = s.pc := rfl
@[simp] theorem State.setY_cyc (s : State) (v : Byte) : (s.setY v).cyc = s.cyc := rfl
@[simp] theorem State.setY_halted (s : State) (v : Byte) : (s.setY v).halted = s.halted := rfl
@[simp] theorem State.setY_ram (s : State) (v : Byte) : (s.setY v).ram = s.ram := rfl
@[simp] theorem State.setY_slot (s : State) (v : Byte) : (s.setY v).slot = s.slot := rfl
@[simp] theorem State.setY_ppu (s : State) (v : Byte) : (s.setY v).ppu = s.ppu := rfl
@[simp] theorem State.setY_setY (s : State) (u v : Byte) : (s.setY u).setY v = s.setY v := rfl
@[simp] theorem State.setY_self (s : State) : s.setY s.y = s := rfl

@[simp] theorem State.setSp_a (s : State) (v : Byte) : (s.setSp v).a = s.a := rfl
@[simp] theorem State.setSp_x (s : State) (v : Byte) : (s.setSp v).x = s.x := rfl
@[simp] theorem State.setSp_y (s : State) (v : Byte) : (s.setSp v).y = s.y := rfl
@[simp] theorem State.setSp_sp (s : State) (v : Byte) : (s.setSp v).sp = v := rfl
@[simp] theorem State.setSp_p (s : State) (v : Byte) : (s.setSp v).p = s.p := rfl
@[simp] theorem State.setSp_pc (s : State) (v : Byte) : (s.setSp v).pc = s.pc := rfl
@[simp] theorem State.setSp_cyc (s : State) (v : Byte) : (s.setSp v).cyc = s.cyc := rfl
@[simp] theorem State.setSp_halted (s : State) (v : Byte) : (s.setSp v).halted = s.halted := rfl
@[simp] theorem State.setSp_ram (s : State) (v : Byte) : (s.setSp v).ram = s.ram := rfl
@[simp] theorem State.setSp_slot (s : State) (v : Byte) : (s.setSp v).slot = s.slot := rfl
@[simp] theorem State.setSp_ppu (s : State) (v : Byte) : (s.setSp v).ppu = s.ppu := rfl
@[simp] theorem State.setSp_setSp (s : State) (u v : Byte) : (s.setSp u).setSp v = s.setSp v := rfl
@[simp] theorem State.setSp_self (s : State) : s.setSp s.sp = s := rfl

@[simp] theorem State.setP_a (s : State) (v : Byte) : (s.setP v).a = s.a := rfl
@[simp] theorem State.setP_x (s : State) (v : Byte) : (s.setP v).x = s.x := rfl
@[simp] theorem State.setP_y (s : State) (v : Byte) : (s.setP v).y = s.y := rfl
@[simp] theorem State.setP_sp (s : State) (v : Byte) : (s.setP v).sp = s.sp := rfl
@[simp] theorem State.setP_p (s : State) (v : Byte) : (s.setP v).p = v := rfl
@[simp] theorem State.setP_pc (s : State) (v : Byte) : (s.setP v).pc = s.pc := rfl
@[simp] theorem State.setP_cyc (s : State) (v : Byte) : (s.setP v).cyc = s.cyc := rfl
@[simp] theorem State.setP_halted (s : State) (v : Byte) : (s.setP v).halted = s.halted := rfl
@[simp] theorem State.setP_ram (s : State) (v : Byte) : (s.setP v).ram = s.ram := rfl
@[simp] theorem State.setP_slot (s : State) (v : Byte) : (s.setP v).slot = s.slot := rfl
@[simp] theorem State.setP_ppu (s : State) (v : Byte) : (s.setP v).ppu = s.ppu := rfl
@[simp] theorem State.setP_setP (s : State) (u v : Byte) : (s.setP u).setP v = s.setP v := rfl
@[simp] theorem State.setP_self (s : State) : s.setP s.p = s := rfl

@[simp] theorem State.setPc_a (s : State) (v : Addr) : (s.setPc v).a = s.a := rfl
@[simp] theorem State.setPc_x (s : State) (v : Addr) : (s.setPc v).x = s.x := rfl
@[simp] theorem State.setPc_y (s : State) (v : Addr) : (s.setPc v).y = s.y := rfl
@[simp] theorem State.setPc_sp (s : State) (v : Addr) : (s.setPc v).sp = s.sp := rfl
@[simp] theorem State.setPc_p (s : State) (v : Addr) : (s.setPc v).p = s.p := rfl
@[simp] theorem State.setPc_pc (s : State) (v : Addr) : (s.setPc v).pc = v := rfl
@[simp] theorem State.setPc_cyc (s : State) (v : Addr) : (s.setPc v).cyc = s.cyc := rfl
@[simp] theorem State.setPc_halted (s : State) (v : Addr) : (s.setPc v).halted = s.halted := rfl
@[simp] theorem State.setPc_ram (s : State) (v : Addr) : (s.setPc v).ram = s.ram := rfl
@[simp] theorem State.setPc_slot (s : State) (v : Addr) : (s.setPc v).slot = s.slot := rfl
@[simp] theorem State.setPc_ppu (s : State) (v : Addr) : (s.setPc v).ppu = s.ppu := rfl
@[simp] theorem State.setPc_setPc (s : State) (u v : Addr) : (s.setPc u).setPc v = s.setPc v := rfl
@[simp] theorem State.setPc_self (s : State) : s.setPc s.pc = s := rfl

@[simp] theorem State.setCyc_a (s : State) (v : Nat) : (s.setCyc v).a = s.a := rfl
@[simp] theorem State.setCyc_x (s : State) (v : Nat) : (s.setCyc v).x = s.x := rfl
@[simp] theorem State.setCyc_y (s : State) (v : Nat) : (s.setCyc v).y = s.y := rfl
@[simp] theorem State.setCyc_sp (s : State) (v : Nat) : (s.setCyc v).sp = s.sp := rfl
@[simp] theorem State.setCyc_p (s : State) (v : Nat) : (s.setCyc v).p = s.p := rfl
@[simp] theorem State.setCyc_pc (s : State) (v : Nat) : (s.setCyc v).pc = s.pc := rfl
@[simp] theorem State.setCyc_cyc (s : State) (v : Nat) : (s.setCyc v).cyc = v := rfl
@[simp] theorem State.setCyc_halted (s : State) (v : Nat) : (s.setCyc v).halted = s.halted := rfl
@[simp] theorem State.setCyc_ram (s : State) (v : Nat) : (s.setCyc v).ram = s.ram := rfl
@[simp] theorem State.setCyc_slot (s : State) (v : Nat) : (s.setCyc v).slot = s.slot := rfl
@[simp] theorem State.setCyc_ppu (s : State) (v : Nat) : (s.setCyc v).ppu = s.ppu := rfl
@[simp] theorem State.setCyc_setCyc (s : State) (u v : Nat) : (s.setCyc u).setCyc v = s.setCyc v := rfl
@[simp] theorem State.setCyc_self (s : State) : s.setCyc s.cyc = s := rfl

@[simp] theorem State.setHalted_a (s : State) (v : Option (Byte × Addr)) : (s.setHalted v).a = s.a := rfl
@[simp] theorem State.setHalted_x (s : State) (v : Option (Byte × Addr)) : (s.setHalted v).x = s.x := rfl
@[simp] theorem State.setHalted_y (s : State) (v : Option (Byte × Addr)) : (s.setHalted v).y = s.y := rfl
@[simp] theorem State.setHalted_sp (s : State) (v : Option (Byte × Addr)) : (s.setHalted v).sp = s.sp := rfl
@[simp] theorem State.setHalted_p (s : State) (v : Option (Byte × Addr)) : (s.setHalted v).p = s.p := rfl
@[simp] theorem State.setHalted_pc (s : State) (v : Option (Byte × Addr)) : (s.setHalted v).pc = s.pc := rfl
@[simp] theorem State.setHalted_cyc (s : State) (v : Option (Byte × Addr)) : (s.setHalted v).cyc = s.cyc := rfl
@[simp] theorem State.setHalted_halted (s : State) (v : Option (Byte × Addr)) : (s.setHalted v).halted = v := rfl
@[simp] theorem State.setHalted_ram (s : State) (v : Option (Byte × Addr)) : (s.setHalted v).ram = s.ram := rfl
@[simp] theorem State.setHalted_slot (s : State) (v : Option (Byte × Addr)) : (s.setHalted v).slot = s.slot := rfl
@[simp] theorem State.setHalted_ppu (s : State) (v : Option (Byte × Addr)) : (s.setHalted v).ppu = s.ppu := rfl
@[simp] theorem State.setHalted_setHalted (s : State) (u v : Option (Byte × Addr)) : (s.setHalted u).setHalted v = s.setHalted v := rfl
@[simp] theorem State.setHalted_self (s : State) : s.setHalted s.halted = s := rfl

@[simp] theorem State.setRam_a (s : State) (v : Memory) : (s.setRam v).a = s.a := rfl
@[simp] theorem State.setRam_x (s : State) (v : Memory) : (s.setRam v).x = s.x := rfl
@[simp] theorem State.setRam_y (s : State) (v : Memory) : (s.setRam v).y = s.y := rfl
@[simp] theorem State.setRam_sp (s : State) (v : Memory) : (s.setRam v).sp = s.sp := rfl
@[simp] theorem State.setRam_p (s : State) (v : Memory) : (s.setRam v).p = s.p := rfl
@[simp] theorem State.setRam_pc (s : State) (v : Memory) : (s.setRam v).pc = s.pc := rfl
@[simp] theorem State.setRam_cyc (s : State) (v : Memory) : (s.setRam v).cyc = s.cyc := rfl
@[simp] theorem State.setRam_halted (s : State) (v : Memory) : (s.setRam v).halted = s.halted := rfl
@[simp] theorem State.setRam_ram (s : State) (v : Memory) : (s.setRam v).ram = v := rfl
@[simp] theorem State.setRam_slot (s : State) (v : Memory) : (s.setRam v).slot = s.slot := rfl
@[simp] theorem State.setRam_ppu (s : State) (v : Memory) : (s.setRam v).ppu = s.ppu := rfl
@[simp] theorem State.setRam_setRam (s : State) (u v : Memory) : (s.setRam u).setRam v = s.setRam v := rfl
@[simp] theorem State.setRam_self (s : State) : s.setRam s.ram = s := rfl

@[simp] theorem State.setSlot_a (s : State) (v : Option Slot) : (s.setSlot v).a = s.a := rfl
@[simp] theorem State.setSlot_x (s : State) (v : Option Slot) : (s.setSlot v).x = s.x := rfl
@[simp] theorem State.setSlot_y (s : State) (v : Option Slot) : (s.setSlot v).y = s.y := rfl
@[simp] theorem State.setSlot_sp (s : State) (v : Option Slot) : (s.setSlot v).sp = s.sp := rfl
@[simp] theorem State.setSlot_p (s : State) (v : Option Slot) : (s.setSlot v).p = s.p := rfl
@[simp] theorem State.setSlot_pc (s : State) (v : Option Slot) : (s.setSlot v).pc = s.pc := rfl
@[simp] theorem State.setSlot_cyc (s : State) (v : Option Slot) : (s.setSlot v).cyc = s.cyc := rfl
@[simp] theorem State.setSlot_halted (s : State) (v : Option Slot) : (s.setSlot v).halted = s.halted := rfl
@[simp] theorem State.setSlot_ram (s : State) (v : Option Slot) : (s.setSlot v).ram = s.ram := rfl
@[simp] theorem State.setSlot_slot (s : State) (v : Option Slot) : (s.setSlot v).slot = v := rfl
@[simp] theorem State.setSlot_ppu (s : State) (v : Option Slot) : (s.setSlot v).ppu = s.ppu := rfl
@[simp] theorem State.setSlot_setSlot (s : State) (u v : Option Slot) : (s.setSlot u).setSlot v = s.setSlot v := rfl
@[simp] theorem State.setSlot_self (s : State) : s.setSlot s.slot = s := rfl

@[simp] theorem State.setPpu_a (s : State) (v : Ppu) : (s.setPpu v).a = s.a := rfl
@[simp] theorem State.setPpu_x (s : State) (v : Ppu) : (s.setPpu v).x = s.x := rfl
@[simp] theorem State.setPpu_y (s : State) (v : Ppu) : (s.setPpu v).y = s.y := rfl
@[simp] theorem State.setPpu_sp (s : State) (v : Ppu) : (s.setPpu v).sp = s.sp := rfl
@[simp] theorem State.setPpu_p (s : State) (v : Ppu) : (s.setPpu v).p = s.p := rfl
@[simp] theorem State.setPpu_pc (s : State) (v : Ppu) : (s.setPpu v).pc = s.pc := rfl
@[simp] theorem State.setPpu_cyc (s : State) (v : Ppu) : (s.setPpu v).cyc = s.cyc := rfl
@[simp] theorem State.setPpu_halted (s : State) (v : Ppu) : (s.setPpu v).halted = s.halted := rfl
@[simp] theorem State.setPpu_ram (s : State) (v : Ppu) : (s.setPpu v).ram = s.ram := rfl
@[simp] theorem State.setPpu_slot (s : State) (v : Ppu) : (s.setPpu v).slot = s.slot := rfl
@[simp] theorem State.setPpu_ppu (s : State) (v : Ppu) : (s.setPpu v).ppu = v := rfl
@[simp] theorem State.setPpu_setPpu (s : State) (u v : Ppu) : (s.setPpu u).setPpu v = s.setPpu v := rfl
@[simp] theorem State.setPpu_self (s : State) : s.setPpu s.ppu = s := rfl

/-! Setters of different fields commute: the PPU is moved inward, to meet another write of it. -/

theorem State.setPpu_setA (s : State) (v : Byte) (u : Ppu) : (s.setA v).setPpu u = (s.setPpu u).setA v := rfl
theorem State.setPpu_setX (s : State) (v : Byte) (u : Ppu) : (s.setX v).setPpu u = (s.setPpu u).setX v := rfl
theorem State.setPpu_setY (s : State) (v : Byte) (u : Ppu) : (s.setY v).setPpu u = (s.setPpu u).setY v := rfl
theorem State.setPpu_setSp (s : State) (v : Byte) (u : Ppu) : (s.setSp v).setPpu u = (s.setPpu u).setSp v := rfl
theorem State.setPpu_setP (s : State) (v : Byte) (u : Ppu) : (s.setP v).setPpu u = (s.setPpu u).setP v := rfl
theorem State.setPpu_setPc (s : State) (v : Addr) (u : Ppu) : (s.setPc v).setPpu u = (s.setPpu u).setPc v := rfl
theorem State.setPpu_setCyc (s : State) (v : Nat) (u : Ppu) : (s.setCyc v).setPpu u = (s.setPpu u).setCyc v := rfl
theorem State.setPpu_setHalted (s : State) (v : Option (Byte × Addr)) (u : Ppu) : (s.setHalted v).setPpu u = (s.setPpu u).setHalted v := rfl
theorem State.setPpu_setRam (s : State) (v : Memory) (u : Ppu) : (s.setRam v).setPpu u = (s.setPpu u).setRam v := rfl
theorem State.setPpu_setSlot (s : State) (v : Option Slot) (u : Ppu) : (s.setSlot v).setPpu u = (s.setPpu u).setSlot v := rfl

/-- Two states are equal when their fields are. -/
theorem State.eq_of_fields {s t : State} (ha : s.a = t.a) (hx : s.x = t.x) (hy : s.y = t.y) (hsp : s.sp = t.sp)
    (hp : s.p = t.p) (hpc : s.pc = t.pc) (hc : s.cyc = t.cyc) (hh : s.halted = t.halted) (hr : s.ram = t.ram)
    (hs : s.slot = t.slot) (hu : s.ppu = t.ppu) : s = t := by
  cases s
  cases t
  simp_all

end Sys2Proof.Machine
end

