-- ==== Sys2Proof/Laws/Bus.lean ====
section
/-! SUPPORT. Sys2Proof/Laws/Bus.lean: what a load, a store, a stack operation and a trap entry can do, said once. A load
changes the PPU interface only (`load_state`); a store leaves the CPU registers alone; the stack page is work RAM
(`region_stackAddr`), so pushes and pops have closed forms. -/

namespace Sys2Proof.Machine

/-! Loads. -/

/-- A load changes nothing but the PPU interface. -/
theorem load_state (a : Addr) (s : State) : (load a s).2 = s.setPpu (load a s).2.ppu := by
  unfold load
  split <;> rfl

@[simp] theorem load_a (c : Addr) (s : State) : (load c s).2.a = s.a := by rw [load_state]; rfl
@[simp] theorem load_x (c : Addr) (s : State) : (load c s).2.x = s.x := by rw [load_state]; rfl
@[simp] theorem load_y (c : Addr) (s : State) : (load c s).2.y = s.y := by rw [load_state]; rfl
@[simp] theorem load_sp (c : Addr) (s : State) : (load c s).2.sp = s.sp := by rw [load_state]; rfl
@[simp] theorem load_p (c : Addr) (s : State) : (load c s).2.p = s.p := by rw [load_state]; rfl
@[simp] theorem load_pc (c : Addr) (s : State) : (load c s).2.pc = s.pc := by rw [load_state]; rfl
@[simp] theorem load_cyc (c : Addr) (s : State) : (load c s).2.cyc = s.cyc := by rw [load_state]; rfl
@[simp] theorem load_halted (c : Addr) (s : State) : (load c s).2.halted = s.halted := by rw [load_state]; rfl
@[simp] theorem load_ram (c : Addr) (s : State) : (load c s).2.ram = s.ram := by rw [load_state]; rfl
@[simp] theorem load_slot (c : Addr) (s : State) : (load c s).2.slot = s.slot := by rw [load_state]; rfl

/-- A load from work RAM. -/
theorem load_of_ram {a : Addr} {k : Nat} (h : region a = .ram k) (s : State) : load a s = (s.ram.read k, s) := by
  simp [load, h]

/-- A load from the cartridge window. -/
theorem load_of_cart {a : Addr} (h : region a = .cart) (s : State) : load a s = (cartLoad s.slot a, s) := by
  simp [load, h]

/-- A load from a PPU register. -/
theorem load_of_ppu {a : Addr} {i : BitVec 3} (h : region a = .ppu i) (s : State) :
    load a s = ((ppuRegRead i s.slot s.ppu).1, s.setPpu (ppuRegRead i s.slot s.ppu).2) := by
  simp [load, h]

/-- Outside the PPU window a load is the peek, and changes nothing. -/
theorem load_eq_peek {a : Addr} (h : ∀ i, region a ≠ .ppu i) (s : State) : load a s = (peek a s, s) := by
  unfold load peek
  cases hr : region a with
  | ppu i => exact absurd hr (h i)
  | _ => rfl

/-- A peek does not see the PPU interface. -/
@[simp] theorem peek_setPpu (a : Addr) (s : State) (u : Ppu) : peek a (s.setPpu u) = peek a s := rfl

theorem loadWord_state (a : Addr) (s : State) : (loadWord a s).2 = s.setPpu (loadWord a s).2.ppu := by
  have h : (loadWord a s).2 = (load (a + 1#16) (load a s).2).2 := rfl
  rw [h, load_state (a + 1#16), load_state a]
  rfl

@[simp] theorem loadWord_a (c : Addr) (s : State) : (loadWord c s).2.a = s.a := by rw [loadWord_state]; rfl
@[simp] theorem loadWord_x (c : Addr) (s : State) : (loadWord c s).2.x = s.x := by rw [loadWord_state]; rfl
@[simp] theorem loadWord_y (c : Addr) (s : State) : (loadWord c s).2.y = s.y := by rw [loadWord_state]; rfl
@[simp] theorem loadWord_sp (c : Addr) (s : State) : (loadWord c s).2.sp = s.sp := by rw [loadWord_state]; rfl
@[simp] theorem loadWord_p (c : Addr) (s : State) : (loadWord c s).2.p = s.p := by rw [loadWord_state]; rfl
@[simp] theorem loadWord_pc (c : Addr) (s : State) : (loadWord c s).2.pc = s.pc := by rw [loadWord_state]; rfl
@[simp] theorem loadWord_cyc (c : Addr) (s : State) : (loadWord c s).2.cyc = s.cyc := by rw [loadWord_state]; rfl
@[simp] theorem loadWord_halted (c : Addr) (s : State) : (loadWord c s).2.halted = s.halted := by
  rw [loadWord_state]; rfl
@[simp] theorem loadWord_ram (c : Addr) (s : State) : (loadWord c s).2.ram = s.ram := by rw [loadWord_state]; rfl
@[simp] theorem loadWord_slot (c : Addr) (s : State) : (loadWord c s).2.slot = s.slot := by rw [loadWord_state]; rfl

/-- A word load outside the PPU window: the two peeked bytes, and nothing changes. -/
theorem loadWord_eq_peek {a : Addr} (h0 : ∀ i, region a ≠ .ppu i) (h1 : ∀ i, region (a + 1#16) ≠ .ppu i) (s : State) :
    loadWord a s = (wordOf (peek (a + 1#16) s) (peek a s), s) := by
  simp only [loadWord, load_eq_peek h0, load_eq_peek h1]

/-! The address decoder. -/

/-- An address below 0x2000 is work RAM, at its low eleven bits. -/
theorem region_ram {a : Addr} (h : a.toNat ≤ 0x1FFF) : region a = .ram (a.toNat % 2048) := by
  have e : (a &&& 0x07FF#16).toNat = a.toNat % 2048 := by
    rw [BitVec.toNat_and]
    exact Nat.and_two_pow_sub_one_eq_mod a.toNat 11
  simp [region, h, e]

/-- An address from 0x4020 on is the cartridge window. -/
theorem region_cart {a : Addr} (h : 0x4020 ≤ a.toNat) : region a = .cart := by
  have h1 : ¬ a.toNat ≤ 0x1FFF := by omega
  have h2 : ¬ a.toNat ≤ 0x3FFF := by omega
  have h3 : ¬ a.toNat ≤ 0x401F := by omega
  have h4 : a ≠ 0x4014#16 := by
    rintro rfl
    exact h3 (by decide)
  simp [region, h1, h2, h3, h4]

/-- A work RAM region comes from an address below 0x2000. -/
theorem region_eq_ram {a : Addr} {k : Nat} (h : region a = .ram k) : a.toNat ≤ 0x1FFF ∧ k = a.toNat % 2048 := by
  by_cases ha : a.toNat ≤ 0x1FFF
  · rw [region_ram ha] at h
    exact ⟨ha, (Region.ram.inj h).symm⟩
  · simp only [region, ha, if_false] at h
    split_ifs at h

/-- The cell index of work RAM is below its size. -/
theorem region_ram_lt {a : Addr} {k : Nat} (h : region a = .ram k) : k < Config.ramSize := by
  have := (region_eq_ram h).2
  simp only [Config.ramSize]
  omega

theorem wordOf_toNat (hi lo : Byte) : (wordOf hi lo).toNat = hi.toNat * 256 + lo.toNat := by
  unfold wordOf
  rw [BitVec.toNat_append, ← Nat.shiftLeft_add_eq_or_of_lt lo.isLt, Nat.shiftLeft_eq]

@[simp] theorem wordOf_hi_lo (w : Addr) : wordOf (hiByte w) (loByte w) = w := by
  apply BitVec.eq_of_getLsbD_eq
  intro i hi
  simp only [wordOf, hiByte, loByte, BitVec.getLsbD_append, BitVec.getLsbD_extractLsb']
  by_cases h : i < 8
  · simp [h]
  · have h1 : i - 8 < 8 := by omega
    have h2 : 8 + (i - 8) = i := by omega
    simp [h, h1, h2]

@[simp] theorem hiByte_wordOf (hi lo : Byte) : hiByte (wordOf hi lo) = hi := by
  apply BitVec.eq_of_getLsbD_eq
  intro i h
  rw [hiByte, wordOf, BitVec.getLsbD_extractLsb', BitVec.getLsbD_append]
  simp [h]

@[simp] theorem loByte_wordOf (hi lo : Byte) : loByte (wordOf hi lo) = lo := by
  apply BitVec.eq_of_getLsbD_eq
  intro i h
  rw [loByte, wordOf, BitVec.getLsbD_extractLsb', BitVec.getLsbD_append]
  simp [h]

/-! The stack: page one of work RAM. -/

/-- A stack cell is work RAM cell 0x100 + SP. -/
@[simp] theorem region_stackAddr (sp : Byte) : region (stackAddr sp) = .ram (0x100 + sp.toNat) := by
  have h : (stackAddr sp).toNat = 0x100 + sp.toNat := by
    unfold stackAddr
    rw [wordOf_toNat]
    rfl
  have hl := sp.isLt
  rw [region_ram (by omega), h, Nat.mod_eq_of_lt (by omega)]

/-- `Push(v)`: one work RAM cell and `SP`. -/
theorem push_eq (v : Byte) (s : State) :
    push v s = (s.setRam (s.ram.write (0x100 + s.sp.toNat) v)).setSp (s.sp - 1#8) := by
  simp [push, store]

/-- `Pop()`: `SP`, and the work RAM cell it then denotes. -/
theorem pop_eq (s : State) :
    pop s = (s.ram.read (0x100 + (s.sp + 1#8).toNat), s.setSp (s.sp + 1#8)) := by
  simp [pop, load]

/-- `PushWord(w)`. -/
theorem pushWord_eq (w : Addr) (s : State) :
    pushWord w s =
      (s.setRam ((s.ram.write (0x100 + s.sp.toNat) (hiByte w)).write (0x100 + (s.sp - 1#8).toNat) (loByte w))).setSp
        (s.sp - 2#8) := by
  have h : s.sp - 1#8 - 1#8 = s.sp - 2#8 := by bv_omega
  simp only [pushWord, push_eq, State.setSp_sp, State.setSp_ram, State.setRam_ram, h]
  rfl

/-- `PopWord()`. -/
theorem popWord_eq (s : State) :
    popWord s =
      (wordOf (s.ram.read (0x100 + (s.sp + 2#8).toNat)) (s.ram.read (0x100 + (s.sp + 1#8).toNat)),
        s.setSp (s.sp + 2#8)) := by
  have h : s.sp + 1#8 + 1#8 = s.sp + 2#8 := by bv_omega
  simp only [popWord, pop_eq, State.setSp_sp, State.setSp_ram, h]
  rfl

/-- Trap entry in closed form (R271): three stack cells, `SP`, `P.I`, `PC`, and what the vector loads do to the PPU
interface. -/
theorem enterTrap_eq (ret : Addr) (status : Byte) (vector : Addr) (s : State) :
    enterTrap ret status vector s =
      (let t := (((s.setRam
          (((s.ram.write (0x100 + s.sp.toNat) (hiByte ret)).write (0x100 + (s.sp - 1#8).toNat) (loByte ret)).write
            (0x100 + (s.sp - 2#8).toNat) status)).setSp (s.sp - 3#8)).setP (setFlag .interruptDisable s.p))
       (loadWord vector t).2.setPc (loadWord vector t).1) := by
  have h : s.sp - 2#8 - 1#8 = s.sp - 3#8 := by bv_omega
  simp only [enterTrap, push_eq, pushWord_eq, State.setSp_sp, State.setSp_ram, State.setRam_ram, State.setSp_p,
    State.setRam_p, h]
  rfl

/-! Stores. -/

/-- The copy of OAM DMA changes nothing but the PPU interface. -/
theorem oamDmaLoop_state (page : Byte) (n : Nat) (i : Byte) (s : State) :
    oamDmaLoop page n i s = s.setPpu (oamDmaLoop page n i s).ppu := by
  induction n generalizing i s with
  | zero => rfl
  | succ n ih =>
    simp only [oamDmaLoop]
    rw [ih, load_state]
    rfl

theorem oamDma_state (page : Byte) (s : State) : oamDma page s = s.setPpu (oamDma page s).ppu := by
  unfold oamDma
  generalize hn : 256 = n
  rw [oamDmaLoop_state page n 0#8 s]
  rfl

/-- A store leaves every CPU register alone: it writes work RAM, the cartridge slot or the PPU interface. -/
theorem store_state (a : Addr) (v : Byte) (s : State) :
    store a v s = ((s.setRam (store a v s).ram).setSlot (store a v s).slot).setPpu (store a v s).ppu := by
  unfold store
  split
  · rfl
  · rfl
  · rfl
  · rw [oamDma_state v s]
    generalize (oamDma v s).ppu = u
    rfl
  · rfl

@[simp] theorem store_a (c : Addr) (v : Byte) (s : State) : (store c v s).a = s.a := by rw [store_state]; rfl
@[simp] theorem store_x (c : Addr) (v : Byte) (s : State) : (store c v s).x = s.x := by rw [store_state]; rfl
@[simp] theorem store_y (c : Addr) (v : Byte) (s : State) : (store c v s).y = s.y := by rw [store_state]; rfl
@[simp] theorem store_sp (c : Addr) (v : Byte) (s : State) : (store c v s).sp = s.sp := by rw [store_state]; rfl
@[simp] theorem store_p (c : Addr) (v : Byte) (s : State) : (store c v s).p = s.p := by rw [store_state]; rfl
@[simp] theorem store_pc (c : Addr) (v : Byte) (s : State) : (store c v s).pc = s.pc := by rw [store_state]; rfl
@[simp] theorem store_cyc (c : Addr) (v : Byte) (s : State) : (store c v s).cyc = s.cyc := by rw [store_state]; rfl
@[simp] theorem store_halted (c : Addr) (v : Byte) (s : State) : (store c v s).halted = s.halted := by
  rw [store_state]; rfl

/-- A store to work RAM writes one cell and nothing else. -/
theorem store_of_ram {a : Addr} {k : Nat} (h : region a = .ram k) (v : Byte) (s : State) :
    store a v s = s.setRam (s.ram.write k v) := by
  simp [store, h]

/-- A store in the cartridge window writes the cartridge slot and nothing else. -/
theorem store_of_cart {a : Addr} (h : region a = .cart) (v : Byte) (s : State) :
    store a v s = s.setSlot (cartStore s.slot a v) := by
  simp [store, h]

/-- A store to a PPU register. -/
theorem store_of_ppu {a : Addr} {i : BitVec 3} (h : region a = .ppu i) (v : Byte) (s : State) :
    store a v s = (s.setSlot (ppuRegWrite i v s.slot s.ppu).1).setPpu (ppuRegWrite i v s.slot s.ppu).2 := by
  simp [store, h]

/-! Operands. -/

/-- Resolving a form changes nothing but the PPU interface. -/
theorem resolve_state (r : Ref) (s : State) : (resolve r s).2 = s.setPpu (resolve r s).2.ppu := by
  cases r with
  | indirectX b => exact loadWord_state _ s
  | indirectY b => exact loadWord_state _ s
  | _ => rfl

/-- Reading an operand changes nothing but the PPU interface. -/
theorem readOperand_state (o : Operand) (s : State) : (readOperand o s).2 = s.setPpu (readOperand o s).2.ppu := by
  cases o with
  | immediate v => rfl
  | memory r =>
    have h : (readOperand (.memory r) s).2 = (load (resolve r s).1 (resolve r s).2).2 := rfl
    rw [h, load_state, resolve_state]
    rfl

end Sys2Proof.Machine
end

