-- ==== Sys2Proof/Laws/Decode.lean ====
section
/-! SUPPORT. Sys2Proof/Laws/Decode.lean: the decoder by the length of an entry's mode, and which bytes have an entry. -/

namespace Sys2Proof

/-- A table entry found for a byte is that byte's. -/
theorem opEntry_opcode {op : Byte} {e : OpEntry} (h : opEntry op = some e) : e.opcode = op := by
  have := List.find?_some h
  simpa using this

/-- The bytes with an entry (R144, R146) are the ones R147 does not list. -/
theorem opEntry_isSome (op : Byte) : (opEntry op).isSome = definedOpcode op := by
  revert op
  decide +kernel

theorem decode_of_none {op : Byte} (h : opEntry op = none) (rest : List Byte) :
    decode (op :: rest) = .undefinedOpcode op := by
  simp only [decode, h]

theorem decode_of_entry0 {op : Byte} {e : OpEntry} (h : opEntry op = some e) (hn : e.mode.operandBytes = 0)
    (rest : List Byte) : decode (op :: rest) = .ok (e.build 0#8 0#8) rest := by
  simp only [decode, h, hn]

theorem decode_of_entry1 {op : Byte} {e : OpEntry} (h : opEntry op = some e) (hn : e.mode.operandBytes = 1)
    (b : Byte) (rest : List Byte) : decode (op :: b :: rest) = .ok (e.build b 0#8) rest := by
  simp only [decode, h, hn]

theorem decode_of_entry2 {op : Byte} {e : OpEntry} (h : opEntry op = some e) (hn : e.mode.operandBytes = 2)
    (b1 b2 : Byte) (rest : List Byte) : decode (op :: b1 :: b2 :: rest) = .ok (e.build b1 b2) rest := by
  simp only [decode, h, hn]

/-- A mode has at most two operand bytes (R140). -/
theorem operandBytes_le (m : Mode) : m.operandBytes ≤ 2 := by cases m <;> decide

end Sys2Proof
end

