-- ==== Sys2Proof/Laws/Flags.lean ====
section
/-! SUPPORT. Sys2Proof/Laws/Flags.lean: what each flag reads as after each flag operation and each flag computation. -/

namespace Sys2Proof.Machine

/-- A flag is its bit of the status (R14, R15). -/
theorem getFlag_eq_bit (f : Flag) (p : Byte) : getFlag f p = p.getLsbD f.bit := by
  revert p
  cases f <;> decide

theorem getFlag_setFlag (f g : Flag) (p : Byte) : getFlag g (setFlag f p) = (decide (g = f) || getFlag g p) := by
  rw [getFlag_eq_bit, getFlag_eq_bit, setFlag, BitVec.getLsbD_or, Bool.or_comm]
  congr 1
  cases f <;> cases g <;> rfl

theorem getFlag_clearFlag (f g : Flag) (p : Byte) : getFlag g (clearFlag f p) = (!decide (g = f) && getFlag g p) := by
  rw [getFlag_eq_bit, getFlag_eq_bit, clearFlag, BitVec.getLsbD_and, Bool.and_comm]
  congr 1
  cases f <;> cases g <;> rfl

/-- `P.f <- c` sets that flag and leaves the others (R15). -/
theorem getFlag_putFlag (f g : Flag) (c : Bool) (p : Byte) :
    getFlag g (putFlag f c p) = if g = f then c else getFlag g p := by
  unfold putFlag
  cases c
  · by_cases h : g = f <;> simp [getFlag_clearFlag, h]
  · by_cases h : g = f <;> simp [getFlag_setFlag, h]

/-- Two status bytes with the same flags are equal. -/
theorem eq_of_getFlag_eq {p q : Byte} (h : ∀ f, getFlag f p = getFlag f q) : p = q := by
  apply BitVec.eq_of_getLsbD_eq
  intro i hi
  simp only [getFlag_eq_bit] at h
  have h0 := h .carry
  have h1 := h .zero
  have h2 := h .interruptDisable
  have h3 := h .decimal
  have h4 := h .breakBit
  have h5 := h .unused
  have h6 := h .overflow
  have h7 := h .negative
  simp only [Flag.bit] at h0 h1 h2 h3 h4 h5 h6 h7
  interval_cases i <;> assumption

/-- `SetZN(v)` by flag (R17). -/
theorem getFlag_setZN (f : Flag) (v p : Byte) :
    getFlag f (setZN v p) =
      if f = .negative then v.getLsbD 7 else if f = .zero then v == 0#8 else getFlag f p := by
  unfold setZN
  rw [getFlag_putFlag, getFlag_putFlag]

/-- ORing the status with a byte sets that byte's flags. -/
theorem getFlag_or (f : Flag) (p q : Byte) : getFlag f (p ||| q) = (getFlag f p || getFlag f q) := by
  simp [getFlag_eq_bit]

/-- The flag bytes named in R229, R231, R233 and R235. -/
@[simp] theorem getFlag_0x20 (f : Flag) : getFlag f 0x20#8 = decide (f = .unused) := by cases f <;> decide
@[simp] theorem getFlag_0x10 (f : Flag) : getFlag f 0x10#8 = decide (f = .breakBit) := by cases f <;> decide
@[simp] theorem getFlag_0x30 (f : Flag) : getFlag f 0x30#8 = (decide (f = .breakBit) || decide (f = .unused)) := by
  cases f <;> decide
@[simp] theorem getFlag_resetP (f : Flag) :
    getFlag f Config.resetP = (decide (f = .interruptDisable) || decide (f = .unused)) := by
  cases f <;> decide

/-- The carry of a status as a number is 0 or 1. -/
theorem carryNat_le_one (p : Byte) : carryNat p ≤ 1 := by
  unfold carryNat
  split <;> omega

/-- What every computation of Flags.lean leaves of the Unused flag: it writes it never. -/
theorem unused_putFlag {f : Flag} (h : f ≠ .unused) (c : Bool) (p : Byte) :
    getFlag .unused (putFlag f c p) = getFlag .unused p := by
  rw [getFlag_putFlag, if_neg (Ne.symm h)]

@[simp] theorem unused_setZN (v p : Byte) : getFlag .unused (setZN v p) = getFlag .unused p := by
  simp [getFlag_setZN]

@[simp] theorem unused_adcFlags (p a m : Byte) : getFlag .unused (adcFlags p a m).2 = getFlag .unused p := by
  simp [adcFlags, getFlag_putFlag]

@[simp] theorem unused_sbcFlags (p a m : Byte) : getFlag .unused (sbcFlags p a m).2 = getFlag .unused p := by
  simp [sbcFlags]

@[simp] theorem unused_andFlags (p a m : Byte) : getFlag .unused (andFlags p a m).2 = getFlag .unused p := by
  simp [andFlags]

@[simp] theorem unused_oraFlags (p a m : Byte) : getFlag .unused (oraFlags p a m).2 = getFlag .unused p := by
  simp [oraFlags]

@[simp] theorem unused_eorFlags (p a m : Byte) : getFlag .unused (eorFlags p a m).2 = getFlag .unused p := by
  simp [eorFlags]

@[simp] theorem unused_ldaFlags (p a m : Byte) : getFlag .unused (ldaFlags p a m).2 = getFlag .unused p := by
  simp [ldaFlags]

@[simp] theorem unused_incFlags (p m : Byte) : getFlag .unused (incFlags p m).2 = getFlag .unused p := by
  simp [incFlags]

@[simp] theorem unused_decFlags (p m : Byte) : getFlag .unused (decFlags p m).2 = getFlag .unused p := by
  simp [decFlags]

@[simp] theorem unused_bitFlags (p a m : Byte) : getFlag .unused (bitFlags p a m) = getFlag .unused p := by
  simp [bitFlags, getFlag_putFlag]

@[simp] theorem unused_compareFlags (p r m : Byte) : getFlag .unused (compareFlags p r m) = getFlag .unused p := by
  simp [compareFlags, getFlag_putFlag]

@[simp] theorem unused_aslFlags (p m : Byte) : getFlag .unused (aslFlags p m).2 = getFlag .unused p := by
  simp [aslFlags, getFlag_putFlag]

@[simp] theorem unused_lsrFlags (p m : Byte) : getFlag .unused (lsrFlags p m).2 = getFlag .unused p := by
  simp [lsrFlags, getFlag_putFlag]

@[simp] theorem unused_rolFlags (p m : Byte) : getFlag .unused (rolFlags p m).2 = getFlag .unused p := by
  simp [rolFlags, getFlag_putFlag]

@[simp] theorem unused_rorFlags (p m : Byte) : getFlag .unused (rorFlags p m).2 = getFlag .unused p := by
  simp [rorFlags, getFlag_putFlag]

end Sys2Proof.Machine
end

