-- ==== Sys2Proof/Laws/Exec.lean ====
section
/-! SUPPORT. Sys2Proof/Laws/Exec.lean: what an instruction can do, said once. Every meaning is built from register writes,
loads and stores, so a property of states that those keep is kept by every instruction (`Closed.exec`); and every
instruction answers a next state (`exec_next`). -/

namespace Sys2Proof.Machine

/-- A property of states that every elementary change of an instruction keeps. The status may be written with the Unused
flag kept or forced to 1. -/
structure Closed (P : State → Prop) : Prop where
  setA : ∀ s v, P s → P (s.setA v)
  setX : ∀ s v, P s → P (s.setX v)
  setY : ∀ s v, P s → P (s.setY v)
  setSp : ∀ s v, P s → P (s.setSp v)
  setPc : ∀ s v, P s → P (s.setPc v)
  setP : ∀ s v, (getFlag .unused s.p = true → getFlag .unused v = true) → P s → P (s.setP v)
  load : ∀ a {s}, P s → P (load a s).2
  store : ∀ a v {s}, P s → P (store a v s)

/-- What holds of the state an instruction answers holds of any state it is said to answer. -/
theorem of_next {P : State → Prop} {u t : State} (h : P u)
    (e : (Host.Outcome.next u : Host.Outcome State Fault Refusal) = .next t) : P t := by
  injection e with e
  exact e ▸ h

section
variable {P : State → Prop} (C : Closed P)
include C

theorem Closed.loadWord (a : Addr) {s : State} (h : P s) : P (loadWord a s).2 := C.load _ (C.load _ h)

theorem Closed.resolve (r : Ref) {s : State} (h : P s) : P (resolve r s).2 := by
  cases r with
  | indirectX b => exact C.loadWord _ h
  | indirectY b => exact C.loadWord _ h
  | _ => exact h

theorem Closed.readOperand (o : Operand) {s : State} (h : P s) : P (readOperand o s).2 := by
  cases o with
  | immediate v => exact h
  | memory r => exact C.load _ (C.resolve r h)

theorem Closed.accumulate {f : Byte → Byte → Byte → Byte × Byte}
    (hf : ∀ p a m, getFlag .unused p = true → getFlag .unused (f p a m).2 = true) (o : Operand) {s : State} (h : P s) :
    P (accumulate f o s) :=
  C.setP _ _ (hf _ _ _) (C.setA _ _ (C.readOperand o h))

theorem Closed.testOperand {f : Byte → Byte → Byte → Byte}
    (hf : ∀ p r m, getFlag .unused p = true → getFlag .unused (f p r m) = true) (r : Byte) (o : Operand) {s : State}
    (h : P s) : P (testOperand f r o s) :=
  C.setP _ _ (hf _ _ _) (C.readOperand o h)

theorem Closed.modifyAccumulator {f : Byte → Byte → Byte × Byte}
    (hf : ∀ p m, getFlag .unused p = true → getFlag .unused (f p m).2 = true) {s : State} (h : P s) :
    P (modifyAccumulator f s) :=
  C.setP _ _ (hf _ _) (C.setA _ _ h)

theorem Closed.modifyMemory {f : Byte → Byte → Byte × Byte}
    (hf : ∀ p m, getFlag .unused p = true → getFlag .unused (f p m).2 = true) (r : Ref) {s : State} (h : P s) :
    P (modifyMemory f r s) := by
  refine C.setP _ _ ?_ (C.store _ _ (C.load _ (C.resolve r h)))
  rw [store_p]
  exact hf _ _

theorem Closed.storeOperand (r : Ref) (v : Byte) {s : State} (h : P s) : P (storeOperand r v s) :=
  C.store _ _ (C.resolve r h)

theorem Closed.loadX (o : Operand) {s : State} (h : P s) : P (loadX o s) :=
  C.setP _ _ (by simp) (C.setX _ _ (C.readOperand o h))

theorem Closed.loadY (o : Operand) {s : State} (h : P s) : P (loadY o s) :=
  C.setP _ _ (by simp) (C.setY _ _ (C.readOperand o h))

theorem Closed.push (v : Byte) {s : State} (h : P s) : P (push v s) := C.setSp _ _ (C.store _ _ h)

theorem Closed.pop {s : State} (h : P s) : P (pop s).2 := C.load _ (C.setSp _ _ h)

theorem Closed.pushWord (w : Addr) {s : State} (h : P s) : P (pushWord w s) := C.push _ (C.push _ h)

theorem Closed.popWord {s : State} (h : P s) : P (popWord s).2 := C.pop (C.pop h)

theorem Closed.enterTrap (ret : Addr) (status : Byte) (vector : Addr) {s : State} (h : P s) :
    P (enterTrap ret status vector s) :=
  C.setPc _ _ (C.loadWord _ (C.setP _ _ (by simp [getFlag_setFlag]) (C.push _ (C.pushWord _ h))))

theorem Closed.returnFromTrap {s : State} (h : P s) : P (returnFromTrap s) :=
  C.setPc _ _ (C.popWord (C.setP _ _ (by simp [getFlag_or]) (C.pop h)))

/-- A closed property is kept by every instruction. -/
theorem Closed.exec (i : Instr) {s t : State} (h : P s) (e : exec i s = .next t) : P t := by
  cases i with
  | adcImm _ => exact of_next (C.accumulate (fun p a m h => by simp [h]) _ h) e
  | adcZp _ => exact of_next (C.accumulate (fun p a m h => by simp [h]) _ h) e
  | adcZpX _ => exact of_next (C.accumulate (fun p a m h => by simp [h]) _ h) e
  | adcAbs _ => exact of_next (C.accumulate (fun p a m h => by simp [h]) _ h) e
  | adcAbsX _ => exact of_next (C.accumulate (fun p a m h => by simp [h]) _ h) e
  | adcAbsY _ => exact of_next (C.accumulate (fun p a m h => by simp [h]) _ h) e
  | adcIndX _ => exact of_next (C.accumulate (fun p a m h => by simp [h]) _ h) e
  | adcIndY _ => exact of_next (C.accumulate (fun p a m h => by simp [h]) _ h) e
  | sbcImm _ => exact of_next (C.accumulate (fun p a m h => by simp [h]) _ h) e
  | sbcZp _ => exact of_next (C.accumulate (fun p a m h => by simp [h]) _ h) e
  | sbcZpX _ => exact of_next (C.accumulate (fun p a m h => by simp [h]) _ h) e
  | sbcAbs _ => exact of_next (C.accumulate (fun p a m h => by simp [h]) _ h) e
  | sbcAbsX _ => exact of_next (C.accumulate (fun p a m h => by simp [h]) _ h) e
  | sbcAbsY _ => exact of_next (C.accumulate (fun p a m h => by simp [h]) _ h) e
  | sbcIndX _ => exact of_next (C.accumulate (fun p a m h => by simp [h]) _ h) e
  | sbcIndY _ => exact of_next (C.accumulate (fun p a m h => by simp [h]) _ h) e
  | andImm _ => exact of_next (C.accumulate (fun p a m h => by simp [h]) _ h) e
  | andZp _ => exact of_next (C.accumulate (fun p a m h => by simp [h]) _ h) e
  | andZpX _ => exact of_next (C.accumulate (fun p a m h => by simp [h]) _ h) e
  | andAbs _ => exact of_next (C.accumulate (fun p a m h => by simp [h]) _ h) e
  | andAbsX _ => exact of_next (C.accumulate (fun p a m h => by simp [h]) _ h) e
  | andAbsY _ => exact of_next (C.accumulate (fun p a m h => by simp [h]) _ h) e
  | andIndX _ => exact of_next (C.accumulate (fun p a m h => by simp [h]) _ h) e
  | andIndY _ => exact of_next (C.accumulate (fun p a m h => by simp [h]) _ h) e
  | oraImm _ => exact of_next (C.accumulate (fun p a m h => by simp [h]) _ h) e
  | oraZp _ => exact of_next (C.accumulate (fun p a m h => by simp [h]) _ h) e
  | oraZpX _ => exact of_next (C.accumulate (fun p a m h => by simp [h]) _ h) e
  | oraAbs _ => exact of_next (C.accumulate (fun p a m h => by simp [h]) _ h) e
  | oraAbsX _ => exact of_next (C.accumulate (fun p a m h => by simp [h]) _ h) e
  | oraAbsY _ => exact of_next (C.accumulate (fun p a m h => by simp [h]) _ h) e
  | oraIndX _ => exact of_next (C.accumulate (fun p a m h => by simp [h]) _ h) e
  | oraIndY _ => exact of_next (C.accumulate (fun p a m h => by simp [h]) _ h) e
  | eorImm _ => exact of_next (C.accumulate (fun p a m h => by simp [h]) _ h) e
  | eorZp _ => exact of_next (C.accumulate (fun p a m h => by simp [h]) _ h) e
  | eorZpX _ => exact of_next (C.accumulate (fun p a m h => by simp [h]) _ h) e
  | eorAbs _ => exact of_next (C.accumulate (fun p a m h => by simp [h]) _ h) e
  | eorAbsX _ => exact of_next (C.accumulate (fun p a m h => by simp [h]) _ h) e
  | eorAbsY _ => exact of_next (C.accumulate (fun p a m h => by simp [h]) _ h) e
  | eorIndX _ => exact of_next (C.accumulate (fun p a m h => by simp [h]) _ h) e
  | eorIndY _ => exact of_next (C.accumulate (fun p a m h => by simp [h]) _ h) e
  | bitZp _ => exact of_next (C.testOperand (fun p r m h => by simp [h]) _ _ h) e
  | bitAbs _ => exact of_next (C.testOperand (fun p r m h => by simp [h]) _ _ h) e
  | aslAcc => exact of_next (C.modifyAccumulator (fun p m h => by simp [h]) h) e
  | aslZp _ => exact of_next (C.modifyMemory (fun p m h => by simp [h]) _ h) e
  | aslZpX _ => exact of_next (C.modifyMemory (fun p m h => by simp [h]) _ h) e
  | aslAbs _ => exact of_next (C.modifyMemory (fun p m h => by simp [h]) _ h) e
  | aslAbsX _ => exact of_next (C.modifyMemory (fun p m h => by simp [h]) _ h) e
  | lsrAcc => exact of_next (C.modifyAccumulator (fun p m h => by simp [h]) h) e
  | lsrZp _ => exact of_next (C.modifyMemory (fun p m h => by simp [h]) _ h) e
  | lsrZpX _ => exact of_next (C.modifyMemory (fun p m h => by simp [h]) _ h) e
  | lsrAbs _ => exact of_next (C.modifyMemory (fun p m h => by simp [h]) _ h) e
  | lsrAbsX _ => exact of_next (C.modifyMemory (fun p m h => by simp [h]) _ h) e
  | rolAcc => exact of_next (C.modifyAccumulator (fun p m h => by simp [h]) h) e
  | rolZp _ => exact of_next (C.modifyMemory (fun p m h => by simp [h]) _ h) e
  | rolZpX _ => exact of_next (C.modifyMemory (fun p m h => by simp [h]) _ h) e
  | rolAbs _ => exact of_next (C.modifyMemory (fun p m h => by simp [h]) _ h) e
  | rolAbsX _ => exact of_next (C.modifyMemory (fun p m h => by simp [h]) _ h) e
  | rorAcc => exact of_next (C.modifyAccumulator (fun p m h => by simp [h]) h) e
  | rorZp _ => exact of_next (C.modifyMemory (fun p m h => by simp [h]) _ h) e
  | rorZpX _ => exact of_next (C.modifyMemory (fun p m h => by simp [h]) _ h) e
  | rorAbs _ => exact of_next (C.modifyMemory (fun p m h => by simp [h]) _ h) e
  | rorAbsX _ => exact of_next (C.modifyMemory (fun p m h => by simp [h]) _ h) e
  | cmpImm _ => exact of_next (C.testOperand (fun p r m h => by simp [h]) _ _ h) e
  | cmpZp _ => exact of_next (C.testOperand (fun p r m h => by simp [h]) _ _ h) e
  | cmpZpX _ => exact of_next (C.testOperand (fun p r m h => by simp [h]) _ _ h) e
  | cmpAbs _ => exact of_next (C.testOperand (fun p r m h => by simp [h]) _ _ h) e
  | cmpAbsX _ => exact of_next (C.testOperand (fun p r m h => by simp [h]) _ _ h) e
  | cmpAbsY _ => exact of_next (C.testOperand (fun p r m h => by simp [h]) _ _ h) e
  | cmpIndX _ => exact of_next (C.testOperand (fun p r m h => by simp [h]) _ _ h) e
  | cmpIndY _ => exact of_next (C.testOperand (fun p r m h => by simp [h]) _ _ h) e
  | cpxImm _ => exact of_next (C.testOperand (fun p r m h => by simp [h]) _ _ h) e
  | cpxZp _ => exact of_next (C.testOperand (fun p r m h => by simp [h]) _ _ h) e
  | cpxAbs _ => exact of_next (C.testOperand (fun p r m h => by simp [h]) _ _ h) e
  | cpyImm _ => exact of_next (C.testOperand (fun p r m h => by simp [h]) _ _ h) e
  | cpyZp _ => exact of_next (C.testOperand (fun p r m h => by simp [h]) _ _ h) e
  | cpyAbs _ => exact of_next (C.testOperand (fun p r m h => by simp [h]) _ _ h) e
  | incZp _ => exact of_next (C.modifyMemory (fun p m h => by simp [h]) _ h) e
  | incZpX _ => exact of_next (C.modifyMemory (fun p m h => by simp [h]) _ h) e
  | incAbs _ => exact of_next (C.modifyMemory (fun p m h => by simp [h]) _ h) e
  | incAbsX _ => exact of_next (C.modifyMemory (fun p m h => by simp [h]) _ h) e
  | decZp _ => exact of_next (C.modifyMemory (fun p m h => by simp [h]) _ h) e
  | decZpX _ => exact of_next (C.modifyMemory (fun p m h => by simp [h]) _ h) e
  | decAbs _ => exact of_next (C.modifyMemory (fun p m h => by simp [h]) _ h) e
  | decAbsX _ => exact of_next (C.modifyMemory (fun p m h => by simp [h]) _ h) e
  | inx => exact of_next (C.setP _ _ (by simp) (C.setX _ _ h)) e
  | iny => exact of_next (C.setP _ _ (by simp) (C.setY _ _ h)) e
  | dex => exact of_next (C.setP _ _ (by simp) (C.setX _ _ h)) e
  | dey => exact of_next (C.setP _ _ (by simp) (C.setY _ _ h)) e
  | ldaImm _ => exact of_next (C.accumulate (fun p a m h => by simp [h]) _ h) e
  | ldaZp _ => exact of_next (C.accumulate (fun p a m h => by simp [h]) _ h) e
  | ldaZpX _ => exact of_next (C.accumulate (fun p a m h => by simp [h]) _ h) e
  | ldaAbs _ => exact of_next (C.accumulate (fun p a m h => by simp [h]) _ h) e
  | ldaAbsX _ => exact of_next (C.accumulate (fun p a m h => by simp [h]) _ h) e
  | ldaAbsY _ => exact of_next (C.accumulate (fun p a m h => by simp [h]) _ h) e
  | ldaIndX _ => exact of_next (C.accumulate (fun p a m h => by simp [h]) _ h) e
  | ldaIndY _ => exact of_next (C.accumulate (fun p a m h => by simp [h]) _ h) e
  | ldxImm _ => exact of_next (C.loadX _ h) e
  | ldxZp _ => exact of_next (C.loadX _ h) e
  | ldxZpY _ => exact of_next (C.loadX _ h) e
  | ldxAbs _ => exact of_next (C.loadX _ h) e
  | ldxAbsY _ => exact of_next (C.loadX _ h) e
  | ldyImm _ => exact of_next (C.loadY _ h) e
  | ldyZp _ => exact of_next (C.loadY _ h) e
  | ldyZpX _ => exact of_next (C.loadY _ h) e
  | ldyAbs _ => exact of_next (C.loadY _ h) e
  | ldyAbsX _ => exact of_next (C.loadY _ h) e
  | staZp _ => exact of_next (C.storeOperand _ _ h) e
  | staZpX _ => exact of_next (C.storeOperand _ _ h) e
  | staAbs _ => exact of_next (C.storeOperand _ _ h) e
  | staAbsX _ => exact of_next (C.storeOperand _ _ h) e
  | staAbsY _ => exact of_next (C.storeOperand _ _ h) e
  | staIndX _ => exact of_next (C.storeOperand _ _ h) e
  | staIndY _ => exact of_next (C.storeOperand _ _ h) e
  | stxZp _ => exact of_next (C.storeOperand _ _ h) e
  | stxZpY _ => exact of_next (C.storeOperand _ _ h) e
  | stxAbs _ => exact of_next (C.storeOperand _ _ h) e
  | styZp _ => exact of_next (C.storeOperand _ _ h) e
  | styZpX _ => exact of_next (C.storeOperand _ _ h) e
  | styAbs _ => exact of_next (C.storeOperand _ _ h) e
  | bccRel _ => exact of_next (C.setPc _ _ h) e
  | bcsRel _ => exact of_next (C.setPc _ _ h) e
  | beqRel _ => exact of_next (C.setPc _ _ h) e
  | bneRel _ => exact of_next (C.setPc _ _ h) e
  | bmiRel _ => exact of_next (C.setPc _ _ h) e
  | bplRel _ => exact of_next (C.setPc _ _ h) e
  | bvcRel _ => exact of_next (C.setPc _ _ h) e
  | bvsRel _ => exact of_next (C.setPc _ _ h) e
  | jmpAbs _ => exact of_next (C.setPc _ _ h) e
  | jmpInd _ => exact of_next (C.setPc _ _ (C.load _ (C.load _ h))) e
  | jsrAbs _ => exact of_next (C.setPc _ _ (C.pushWord _ h)) e
  | rts => exact of_next (C.setPc _ _ (C.popWord h)) e
  | brk => exact of_next (C.enterTrap _ _ _ h) e
  | rti => exact of_next (C.returnFromTrap h) e
  | pha => exact of_next (C.push _ h) e
  | php => exact of_next (C.push _ h) e
  | pla => exact of_next (C.setP _ _ (by simp) (C.setA _ _ (C.pop h))) e
  | plp => exact of_next (C.setP _ _ (by simp [getFlag_or]) (C.pop h)) e
  | tax => exact of_next (C.setP _ _ (by simp) (C.setX _ _ h)) e
  | tay => exact of_next (C.setP _ _ (by simp) (C.setY _ _ h)) e
  | tsx => exact of_next (C.setP _ _ (by simp) (C.setX _ _ h)) e
  | txa => exact of_next (C.setP _ _ (by simp) (C.setA _ _ h)) e
  | txs => exact of_next (C.setSp _ _ h) e
  | tya => exact of_next (C.setP _ _ (by simp) (C.setA _ _ h)) e
  | clc => exact of_next (C.setP _ _ (by simp [getFlag_clearFlag]) h) e
  | cld => exact of_next (C.setP _ _ (by simp [getFlag_clearFlag]) h) e
  | cli => exact of_next (C.setP _ _ (by simp [getFlag_clearFlag]) h) e
  | clv => exact of_next (C.setP _ _ (by simp [getFlag_clearFlag]) h) e
  | sec => exact of_next (C.setP _ _ (by simp [getFlag_setFlag]) h) e
  | sed => exact of_next (C.setP _ _ (by simp [getFlag_setFlag]) h) e
  | sei => exact of_next (C.setP _ _ (by simp [getFlag_setFlag]) h) e
  | nop => exact of_next (h) e

end

/-- Every instruction answers a next state (R261: nothing but the fatal dispatch faults). -/
theorem exec_next (i : Instr) (s : State) : ∃ t, exec i s = .next t := by
  cases i <;> exact ⟨_, rfl⟩

end Sys2Proof.Machine
end

