-- ==== Sys2Proof/Laws/Invariant.lean ====
section
/-! SUPPORT. Sys2Proof/Laws/Invariant.lean: the properties that every instruction keeps, each as a `Closed` fact: the
well-formedness of the block, the Unused flag, the cartridge record, the PPU position and signals, the cycle counter and
the Halted record. -/

namespace Sys2Proof.Machine

/-! Cell indices stay inside their memories. -/

theorem toNat_and_le {n : Nat} (a b : BitVec n) : (a &&& b).toNat ≤ b.toNat := by
  rw [BitVec.toNat_and]
  exact Nat.and_le_right

theorem ntIndex_lt (m : Mirroring) (a : VAddr) : ntIndex m a < Config.ntSize := by
  have h7 := toNat_and_le (a &&& 0x0FFF#14) 0x07FF#14
  have h3 := toNat_and_le (a &&& 0x0FFF#14) 0x03FF#14
  have h4 := toNat_and_le ((a &&& 0x0FFF#14) >>> 1) 0x0400#14
  rw [show (0x07FF#14 : VAddr).toNat = 2047 from rfl] at h7
  rw [show (0x03FF#14 : VAddr).toNat = 1023 from rfl] at h3
  rw [show (0x0400#14 : VAddr).toNat = 1024 from rfl] at h4
  simp only [Config.ntSize]
  cases m
  · simp only [ntIndex]
    rw [BitVec.toNat_or]
    exact Nat.or_lt_two_pow (n := 11) (by omega) (by omega)
  · simp only [ntIndex]
    omega
  · simp only [ntIndex]
    omega
  · simp only [ntIndex]
    rw [BitVec.toNat_or]
    exact Nat.or_lt_two_pow (n := 11) (by decide) (by omega)

theorem palIndex_lt (a : VAddr) : palIndex a < Config.palSize := by
  have h := toNat_and_le a 0x001F#14
  rw [show (0x001F#14 : VAddr).toNat = 31 from rfl] at h
  simp only [palIndex, Config.palSize]
  split <;> omega

/-- The CHR RAM cell of a pattern address is below 8192 when CHR RAM is in use. -/
theorem chrIndex_lt {sl : Slot} (hc : sl.cart.chrBanks = 0) {a : Nat} (h : a < 0x2000) :
    sl.chrIndex a < Config.chrBankSize := by
  have hs : sl.cart.chrSize = Config.chrBankSize := by simp [Cartridge.chrSize, hc]
  have hp : 0 < Config.chrBankSize := by decide
  unfold Slot.chrIndex
  rw [hs]
  split
  · exact h
  · split_ifs <;> exact Nat.mod_lt _ hp
  · exact h
  · exact Nat.mod_lt _ hp

/-! The cartridge slot. -/

/-- Neither a store in the cartridge window nor one to pattern memory changes the cartridge record (R26). -/
@[simp] theorem Slot.cpuStore_cart (sl : Slot) (a : Addr) (v : Byte) : (sl.cpuStore a v).cart = sl.cart := by
  unfold Slot.cpuStore
  split
  · rfl
  · split <;> rfl

@[simp] theorem Slot.chrStore_cart (sl : Slot) (a : Nat) (v : Byte) : (sl.chrStore a v).cart = sl.cart := by
  unfold Slot.chrStore
  split <;> rfl

theorem M1Regs.write_count_lt {r : M1Regs} (h : r.count < 5) (a : Addr) (v : Byte) : (r.write a v).count < 5 := by
  unfold M1Regs.write
  split
  · exact Nat.zero_lt_succ 4
  · dsimp only
    split
    · split <;> exact Nat.zero_lt_succ 4
    · next hne =>
      dsimp only
      omega

theorem Slot.cpuStore_wf {sl : Slot} (h : sl.wf = true) (a : Addr) (v : Byte) : (sl.cpuStore a v).wf = true := by
  unfold Slot.cpuStore
  split
  · exact h
  · cases he : sl.engine with
    | m0 => exact h
    | m1 r =>
      simp only [Slot.wf, Bool.and_eq_true, he, engineFits, decide_eq_true_eq] at h ⊢
      exact ⟨h.1, h.2.1, M1Regs.write_count_lt h.2.2 a v⟩
    | m2 b =>
      simp only [Slot.wf, Bool.and_eq_true, he, engineFits] at h ⊢
      exact h
    | m3 b =>
      simp only [Slot.wf, Bool.and_eq_true, he, engineFits] at h ⊢
      exact h

theorem Slot.chrStore_wf {sl : Slot} (h : sl.wf = true) {a : Nat} (ha : a < 0x2000) (v : Byte) :
    (sl.chrStore a v).wf = true := by
  unfold Slot.chrStore
  split
  · next hc =>
    simp only [Slot.wf, Bool.and_eq_true, decide_eq_true_eq] at h ⊢
    exact ⟨⟨⟨h.1.1.1, Memory.canonical_write (chrIndex_lt hc ha) h.1.1.2⟩, Or.inl hc⟩, h.2⟩
  · exact h

/-! The PPU interface. -/

theorem vramRange_pattern {a : VAddr} (h : vramRange a = .pattern) : a.toNat < 0x2000 := by
  unfold vramRange at h
  split at h
  · assumption
  · split at h <;> cases h

theorem patternStore_wf {slot : Option Slot} (h : slot.all Slot.wf = true) {a : VAddr} (ha : a.toNat < 0x2000)
    (v : Byte) : (patternStore slot a v).all Slot.wf = true := by
  cases slot with
  | none => rfl
  | some sl => exact Slot.chrStore_wf h ha v

/-- What well-formedness of the PPU interface says. -/
theorem Ppu.wf_iff (u : Ppu) :
    u.wf = true ↔ Memory.canonical Config.oamSize u.oam = true ∧ Memory.canonical Config.ntSize u.nt = true ∧
      Memory.canonical Config.palSize u.pal = true ∧ u.scanline < Config.linesPerFrame ∧ u.dot < Config.dotsPerLine ∧
      u.status &&& 0x7F#8 = 0#8 := by
  simp [Ppu.wf, and_assoc]

theorem Ppu.oamPut_wf {u : Ppu} (h : u.wf = true) (v : Byte) : (u.oamPut v).wf = true := by
  rw [Ppu.wf_iff] at h ⊢
  exact ⟨Memory.canonical_write u.oamAddr.isLt h.1, h.2⟩

theorem vramStore_wf {slot : Option Slot} {u : Ppu} (hs : slot.all Slot.wf = true) (hu : u.wf = true) (a : VAddr)
    (v : Byte) : (vramStore slot u a v).1.all Slot.wf = true ∧ (vramStore slot u a v).2.wf = true := by
  rw [Ppu.wf_iff] at hu
  unfold vramStore
  split
  · next h => exact ⟨patternStore_wf hs (vramRange_pattern h) v, (Ppu.wf_iff u).2 hu⟩
  · exact ⟨hs, (Ppu.wf_iff _).2 ⟨hu.1, Memory.canonical_write (ntIndex_lt _ _) hu.2.1, hu.2.2⟩⟩
  · exact ⟨hs, (Ppu.wf_iff _).2 ⟨hu.1, hu.2.1, Memory.canonical_write (palIndex_lt _) hu.2.2.1, hu.2.2.2⟩⟩

theorem ppuRegRead_wf {u : Ppu} (h : u.wf = true) (i : BitVec 3) (slot : Option Slot) :
    (ppuRegRead i slot u).2.wf = true := by
  rw [Ppu.wf_iff] at h
  unfold ppuRegRead
  split
  · refine (Ppu.wf_iff _).2 ⟨h.1, h.2.1, h.2.2.1, h.2.2.2.1, h.2.2.2.2.1, ?_⟩
    simp [Ppu.readStatus, h.2.2.2.2.2]
  · exact (Ppu.wf_iff _).2 h
  · unfold Ppu.readData
    dsimp only
    split <;> exact (Ppu.wf_iff _).2 h
  · exact (Ppu.wf_iff _).2 h

theorem ppuRegWrite_wf {slot : Option Slot} {u : Ppu} (hs : slot.all Slot.wf = true) (h : u.wf = true) (i : BitVec 3)
    (v : Byte) : (ppuRegWrite i v slot u).1.all Slot.wf = true ∧ (ppuRegWrite i v slot u).2.wf = true := by
  have hu := (Ppu.wf_iff u).1 h
  unfold ppuRegWrite
  split
  · exact ⟨hs, (Ppu.wf_iff _).2 hu⟩
  · exact ⟨hs, (Ppu.wf_iff _).2 hu⟩
  · exact ⟨hs, h⟩
  · exact ⟨hs, (Ppu.wf_iff _).2 hu⟩
  · exact ⟨hs, Ppu.oamPut_wf h v⟩
  · refine ⟨hs, ?_⟩
    unfold Ppu.writeScroll
    split <;> exact (Ppu.wf_iff _).2 hu
  · refine ⟨hs, ?_⟩
    unfold Ppu.writeAddr
    split <;> exact (Ppu.wf_iff _).2 hu
  · have hw := vramStore_wf hs h u.vramAddr v
    exact ⟨hw.1, (Ppu.wf_iff _).2 ((Ppu.wf_iff _).1 hw.2)⟩

theorem Ppu.advance_wf {u : Ppu} (h : u.wf = true) : u.advance.wf = true := by
  rw [Ppu.wf_iff] at h ⊢
  unfold Ppu.advance
  dsimp only
  obtain ⟨h1, h2, h3, h4, h5, h6⟩ := h
  split
  · refine ⟨h1, h2, h3, ?_, by simp [Config.dotsPerLine], h6⟩
    dsimp only
    split <;> simp only [Config.linesPerFrame] at * <;> omega
  · refine ⟨h1, h2, h3, ?_, ?_, h6⟩
    · dsimp only
      split <;> simp only [Config.linesPerFrame] at * <;> omega
    · dsimp only
      omega

/-- A PPU cycle keeps the PPU interface well formed. -/
theorem Ppu.tick_wf {u : Ppu} (h : u.wf = true) : u.tick.wf = true := by
  have ha := Ppu.advance_wf h
  have hb := (Ppu.wf_iff _).1 ha
  unfold Ppu.tick
  dsimp only
  split
  · refine (Ppu.wf_iff _).2 ⟨hb.1, hb.2.1, hb.2.2.1, hb.2.2.2.1, hb.2.2.2.2.1, ?_⟩
    have e : ∀ p q r : Byte, (p ||| q) &&& r = (p &&& r) ||| (q &&& r) := by
      intro p q r
      ext i
      simp [Bool.and_or_distrib_right]
    simp only [Ppu.vblankStart]
    rw [e, hb.2.2.2.2.2]
    rfl
  · split
    · refine (Ppu.wf_iff _).2 ⟨hb.1, hb.2.1, hb.2.2.1, hb.2.2.2.1, hb.2.2.2.2.1, ?_⟩
      simp [Ppu.vblankEnd, hb.2.2.2.2.2]
    · exact ha

theorem Ppu.ticks_wf (n : Nat) {u : Ppu} (h : u.wf = true) : (u.ticks n).wf = true := by
  induction n generalizing u with
  | zero => exact h
  | succ n ih => exact ih (Ppu.tick_wf h)

/-! The Bus. -/

/-- What well-formedness of the block says. -/
theorem State.wf_iff (s : State) :
    s.wf = true ↔ Memory.canonical Config.ramSize s.ram = true ∧ s.slot.all Slot.wf = true ∧ s.ppu.wf = true := by
  simp [State.wf, and_assoc]

theorem load_wf {s : State} (h : s.wf = true) (a : Addr) : (load a s).2.wf = true := by
  rw [State.wf_iff] at h
  unfold load
  split
  · exact (State.wf_iff _).2 h
  · exact (State.wf_iff _).2 ⟨h.1, h.2.1, ppuRegRead_wf h.2.2 _ _⟩
  · exact (State.wf_iff _).2 h
  · exact (State.wf_iff _).2 h
  · exact (State.wf_iff _).2 h

theorem oamDmaLoop_wf (page : Byte) (n : Nat) (i : Byte) {s : State} (h : s.wf = true) :
    (oamDmaLoop page n i s).wf = true := by
  induction n generalizing i s with
  | zero => exact h
  | succ n ih =>
    have hl := (State.wf_iff _).1 (load_wf h (wordOf page i))
    exact ih _ ((State.wf_iff _).2 ⟨hl.1, hl.2.1, Ppu.oamPut_wf hl.2.2 _⟩)

theorem oamDma_wf {s : State} (h : s.wf = true) (page : Byte) : (oamDma page s).wf = true := by
  unfold oamDma
  generalize 256 = n
  have hd := (State.wf_iff _).1 (oamDmaLoop_wf page n 0#8 h)
  exact (State.wf_iff _).2 ⟨hd.1, hd.2.1, (Ppu.wf_iff _).2 ((Ppu.wf_iff _).1 hd.2.2)⟩

theorem cartStore_wf {slot : Option Slot} (h : slot.all Slot.wf = true) (a : Addr) (v : Byte) :
    (cartStore slot a v).all Slot.wf = true := by
  cases slot with
  | none => rfl
  | some sl => exact Slot.cpuStore_wf h a v

theorem store_wf {s : State} (h : s.wf = true) (a : Addr) (v : Byte) : (store a v s).wf = true := by
  have hs := (State.wf_iff s).1 h
  unfold store
  split
  · next k hr => exact (State.wf_iff _).2 ⟨Memory.canonical_write (region_ram_lt hr) hs.1, hs.2⟩
  · next i hr =>
    have hw := ppuRegWrite_wf hs.2.1 hs.2.2 i v
    exact (State.wf_iff _).2 ⟨hs.1, hw.1, hw.2⟩
  · exact h
  · exact oamDma_wf h v
  · exact (State.wf_iff _).2 ⟨hs.1, cartStore_wf hs.2.1 a v, hs.2.2⟩

/-- Every elementary change keeps the block well formed. -/
theorem closed_wf : Closed fun s => s.wf = true where
  setA _ _ h := h
  setX _ _ h := h
  setY _ _ h := h
  setSp _ _ h := h
  setPc _ _ h := h
  setP _ _ _ h := h
  load a _ h := load_wf h a
  store a v _ h := store_wf h a v

/-- Every elementary change of an instruction keeps the Unused flag at 1 (R16). -/
theorem closed_unused : Closed fun s => s.unusedSet = true where
  setA _ _ h := h
  setX _ _ h := h
  setY _ _ h := h
  setSp _ _ h := h
  setPc _ _ h := h
  setP _ _ hv h := hv h
  load a s h := by simpa [State.unusedSet] using h
  store a v s h := by simpa [State.unusedSet] using h

/-- The Halted record and the cycle counter are no instruction's business (R23, R296). -/
theorem closed_halted_cyc (w : Option (Byte × Addr)) (c : Nat) : Closed fun s => s.halted = w ∧ s.cyc = c where
  setA _ _ h := h
  setX _ _ h := h
  setY _ _ h := h
  setSp _ _ h := h
  setPc _ _ h := h
  setP _ _ _ h := h
  load a s h := by simpa using h
  store a v s h := by simpa using h

theorem vramStore_cart (slot : Option Slot) (u : Ppu) (a : VAddr) (v : Byte) :
    (vramStore slot u a v).1.map Slot.cart = slot.map Slot.cart := by
  unfold vramStore
  split
  · cases slot <;> simp [patternStore]
  · rfl
  · rfl

theorem ppuRegWrite_cart (i : BitVec 3) (v : Byte) (slot : Option Slot) (u : Ppu) :
    (ppuRegWrite i v slot u).1.map Slot.cart = slot.map Slot.cart := by
  unfold ppuRegWrite
  split
  all_goals first | rfl | exact vramStore_cart _ _ _ _

/-- A store does not change the cartridge record (R26). -/
theorem store_cart (a : Addr) (v : Byte) (s : State) : (store a v s).cart = s.cart := by
  unfold store State.cart
  split
  · rfl
  · exact ppuRegWrite_cart _ _ _ _
  · rfl
  · rw [oamDma_state]
    rfl
  · rw [State.setSlot_slot]
    cases s.slot <;> simp [cartStore]

/-- No instruction changes the cartridge record (R26). -/
theorem closed_cart (c : Option Cartridge) : Closed fun s => s.cart = c where
  setA _ _ h := h
  setX _ _ h := h
  setY _ _ h := h
  setSp _ _ h := h
  setPc _ _ h := h
  setP _ _ _ h := h
  load a s h := by
    show (load a s).2.slot.map Slot.cart = c
    rw [load_slot]
    exact h
  store a v s h := by rw [store_cart, h]

/-- The PPU position and the signals that only the PPU's own clock sets (R128 to R130). -/
def Ppu.clockPart (u : Ppu) : Nat × Nat × Bool × Bool := (u.scanline, u.dot, u.nmiRequest, u.newFrame)

theorem ppuRegRead_clock (i : BitVec 3) (slot : Option Slot) (u : Ppu) :
    (ppuRegRead i slot u).2.clockPart = u.clockPart := by
  unfold ppuRegRead
  split
  · rfl
  · rfl
  · unfold Ppu.readData
    dsimp only
    split <;> rfl
  · rfl

theorem vramStore_clock (slot : Option Slot) (u : Ppu) (a : VAddr) (v : Byte) :
    (vramStore slot u a v).2.clockPart = u.clockPart := by
  unfold vramStore
  split <;> rfl

theorem ppuRegWrite_clock (i : BitVec 3) (v : Byte) (slot : Option Slot) (u : Ppu) :
    (ppuRegWrite i v slot u).2.clockPart = u.clockPart := by
  unfold ppuRegWrite
  split
  · rfl
  · rfl
  · rfl
  · rfl
  · rfl
  · unfold Ppu.writeScroll
    split <;> rfl
  · unfold Ppu.writeAddr
    split <;> rfl
  · exact vramStore_clock slot u u.vramAddr v

theorem load_clock (a : Addr) (s : State) : (load a s).2.ppu.clockPart = s.ppu.clockPart := by
  unfold load
  split
  · rfl
  · exact ppuRegRead_clock _ _ _
  · rfl
  · rfl
  · rfl

theorem oamDmaLoop_clock (page : Byte) (n : Nat) (i : Byte) (s : State) :
    (oamDmaLoop page n i s).ppu.clockPart = s.ppu.clockPart := by
  induction n generalizing i s with
  | zero => rfl
  | succ n ih =>
    simp only [oamDmaLoop]
    rw [ih]
    exact load_clock _ _

theorem oamDma_clock (page : Byte) (s : State) : (oamDma page s).ppu.clockPart = s.ppu.clockPart := by
  unfold oamDma
  generalize 256 = n
  exact oamDmaLoop_clock page n 0#8 s

theorem store_clock (a : Addr) (v : Byte) (s : State) : (store a v s).ppu.clockPart = s.ppu.clockPart := by
  unfold store
  split
  · rfl
  · exact ppuRegWrite_clock _ _ _ _
  · rfl
  · exact oamDma_clock v s
  · rfl

/-- No instruction moves the PPU position or raises the NMI request or the new-frame signal (R301). -/
theorem closed_clock (c : Nat × Nat × Bool × Bool) : Closed fun s => s.ppu.clockPart = c where
  setA _ _ h := h
  setX _ _ h := h
  setY _ _ h := h
  setSp _ _ h := h
  setPc _ _ h := h
  setP _ _ _ h := h
  load a s h := by rw [load_clock, h]
  store a v s h := by rw [store_clock, h]

end Sys2Proof.Machine
end

