-- ==== Sys2Proof/Laws/Step.lean ====
section
/-! SUPPORT. Sys2Proof/Laws/Step.lean: everything a step can do, said once (`step_next`), when it answers a next state
(`step_of_entry`), and that a closed property is kept by a step (`Closed.step`). -/

namespace Sys2Proof.Machine

/-- The opcode fetch changes the PPU interface and `PC` only. -/
theorem fetchOpcode_state (s : State) :
    (fetchOpcode s).2 = (s.setPpu (load s.pc s).2.ppu).setPc (s.pc + 1#16) := by
  show (load s.pc s).2.setPc (s.pc + 1#16) = _
  rw [load_state]
  rfl

/-- The operand loads change the PPU interface only. -/
theorem fetchOperands_state (n : Nat) (s : State) :
    (fetchOperands n s).2 = s.setPpu (fetchOperands n s).2.ppu := by
  match n with
  | 0 => rfl
  | 1 =>
    show (load s.pc s).2 = s.setPpu (load s.pc s).2.ppu
    exact load_state s.pc s
  | n + 2 =>
    show (load (s.pc + 1#16) (load s.pc s).2).2 = s.setPpu (load (s.pc + 1#16) (load s.pc s).2).2.ppu
    rw [load_state (s.pc + 1#16), load_state s.pc]
    rfl

/-- The state in which a handler runs: `PC` one past the opcode, and what the fetch did to the PPU interface. -/
theorem handlerState_state (e : OpEntry) (s : State) :
    handlerState e (fetchOpcode s).2 =
      (s.setPpu (handlerState e (fetchOpcode s).2).ppu).setPc (s.pc + 1#16) := by
  unfold handlerState
  rw [fetchOperands_state, fetchOpcode_state]
  rfl

/-- A step of a running CPU on a defined opcode: the instruction's own effect, then `finish` (R296). -/
theorem step_of_entry {s : State} (hh : s.halted = none) {sl : Slot} (hs : s.slot = some sl) {e : OpEntry}
    (he : opEntry (load s.pc s).1 = some e) :
    ∃ u, exec (fetchedInstr e (fetchOpcode s).2) (handlerState e (fetchOpcode s).2) = .next u ∧
      cpuStep s = .done (finish e u) e.cycles ∧ step s = .next (finish e u) := by
  obtain ⟨u, hu⟩ := exec_next (fetchedInstr e (fetchOpcode s).2) (handlerState e (fetchOpcode s).2)
  have hc : cpuStep s = .done (finish e u) e.cycles := by
    have hf : opEntry (fetchOpcode s).1 = some e := he
    simp only [cpuStep, hf, hu]
  refine ⟨u, hu, hc, ?_⟩
  simp only [step, stepOutcome, hh, hs, hc]

/-- A step of a running CPU on an undefined opcode: the fatal dispatch error (R260). -/
theorem step_of_undefined {s : State} (hh : s.halted = none) {sl : Slot} (hs : s.slot = some sl)
    (he : opEntry (load s.pc s).1 = none) :
    cpuStep s = .fatal (raiseFatal (load s.pc s).1 s.pc (fetchOpcode s).2) (load s.pc s).1 s.pc ∧
      step s = .fault (.fatalDispatch (load s.pc s).1 s.pc) := by
  have hf : opEntry (fetchOpcode s).1 = none := he
  have hc : cpuStep s = .fatal (raiseFatal (load s.pc s).1 s.pc (fetchOpcode s).2) (load s.pc s).1 s.pc := by
    simp only [cpuStep, hf]
    rfl
  exact ⟨hc, by simp only [step, stepOutcome, hh, hs, hc]⟩

/-- Everything a step that answers a next state can have done: nothing on a halted CPU, or one instruction. -/
theorem step_next {s t : State} (h : step s = .next t) :
    (s.halted.isSome ∧ t = s) ∨
    (s.halted = none ∧ s.slot.isSome ∧ ∃ e u, opEntry (load s.pc s).1 = some e ∧
      exec (fetchedInstr e (fetchOpcode s).2) (handlerState e (fetchOpcode s).2) = .next u ∧ t = finish e u) := by
  cases hh : s.halted with
  | some w =>
    simp only [step, stepOutcome, hh] at h
    injection h with h
    exact Or.inl ⟨rfl, h.symm⟩
  | none =>
    cases hs : s.slot with
    | none => simp [step, stepOutcome, hh, hs] at h
    | some sl =>
      refine Or.inr ⟨rfl, rfl, ?_⟩
      cases he : opEntry (load s.pc s).1 with
      | none =>
        rw [(step_of_undefined hh hs he).2] at h
        cases h
      | some e =>
        obtain ⟨u, hu, -, hst⟩ := step_of_entry hh hs he
        rw [hst] at h
        injection h with h
        exact ⟨e, u, rfl, hu, h.symm⟩

/-- A property that is closed and does not see `CYC` is kept by a step. -/
theorem Closed.step {P : State → Prop} (C : Closed P) (hc : ∀ s v, P s → P (s.setCyc v)) {s t : State} (h : P s)
    (e : step s = .next t) : P t := by
  rcases step_next e with ⟨-, rfl⟩ | ⟨-, -, en, u, -, hu, rfl⟩
  · exact h
  · have h1 : P (fetchOpcode s).2 := C.setPc _ _ (C.load _ h)
    have h2 : P (handlerState en (fetchOpcode s).2) := by
      unfold handlerState fetchOperands
      split
      · exact h1
      · exact C.load _ h1
      · exact C.load _ (C.load _ h1)
    exact hc _ _ (C.setPc _ _ (C.exec _ h2 hu))

end Sys2Proof.Machine
end

