-- ==== Sys2Proof/Laws/Driver.lean ====
section
/-! SUPPORT. Sys2Proof/Laws/Driver.lean: what `nmi()`, `irq()`, PPU cycles and a Driver iteration can do. -/

namespace Sys2Proof.Machine

/-! PPU cycles change the PPU interface only. -/

@[simp] theorem ppuTicks_ppu (n : Nat) (s : State) : (ppuTicks n s).ppu = s.ppu.ticks n := rfl
@[simp] theorem ppuTicks_cyc (n : Nat) (s : State) : (ppuTicks n s).cyc = s.cyc := rfl
@[simp] theorem ppuTicks_halted (n : Nat) (s : State) : (ppuTicks n s).halted = s.halted := rfl
@[simp] theorem ppuTicks_slot (n : Nat) (s : State) : (ppuTicks n s).slot = s.slot := rfl
@[simp] theorem settleFrame_cyc (s : State) : (settleFrame s).cyc = s.cyc := rfl
@[simp] theorem settleFrame_halted (s : State) : (settleFrame s).halted = s.halted := rfl
@[simp] theorem settleFrame_slot (s : State) : (settleFrame s).slot = s.slot := rfl
@[simp] theorem settleFrame_ppu (s : State) : (settleFrame s).ppu = { s.ppu with newFrame := false } := rfl

theorem Ppu.advance_ctrl (u : Ppu) : u.advance.ctrl = u.ctrl := by
  unfold Ppu.advance
  dsimp only
  split <;> rfl

/-- A PPU cycle does not write `ctrl`. -/
@[simp] theorem Ppu.tick_ctrl (u : Ppu) : u.tick.ctrl = u.ctrl := by
  unfold Ppu.tick
  dsimp only
  split
  · exact u.advance_ctrl
  · split <;> exact u.advance_ctrl

/-- `nmi()` on a running CPU is the trap entry and its cost (R265). -/
theorem nmi_of_running {s : State} (h : s.halted = none) :
    nmi s = (enterTrap s.pc s.p Config.vecNmi s).setCyc (s.cyc + 7) := by
  unfold nmi
  rw [h]
  dsimp only
  rw [enterTrap_eq]
  rfl

/-- `nmi()` leaves the PPU interface as it was. -/
theorem nmi_ppu (s : State) : (nmi s).ppu = s.ppu := by
  cases h : s.halted with
  | none => rw [nmi_of_running h, enterTrap_eq]; rfl
  | some w => unfold nmi; rw [h]

/-! A Driver iteration around a step. -/

/-- What a step that answers a next state tells of `cpuStep`: the same state, and the cycles by which `CYC` rose. -/
theorem cpuStep_of_step {s t : State} {c : Nat} (hh : s.halted = none) (h : step s = .next t) (hc : t.cyc = s.cyc + c) :
    s.slot.isSome = true ∧ cpuStep s = .done t c := by
  unfold step stepOutcome at h
  rw [hh] at h
  cases hs : s.slot with
  | none => rw [hs] at h; cases h
  | some sl =>
    rw [hs] at h
    refine ⟨rfl, ?_⟩
    cases hp : cpuStep s with
    | done u n =>
      rw [hp] at h
      cases h
      congr
      unfold cpuStep at hp
      dsimp only at hp
      split at hp
      · cases hp
      · split at hp
        · next _ e _ _ u' hu =>
          cases hp
          have hk := ((closed_halted_cyc s.halted s.cyc).exec (fetchedInstr e (fetchOpcode s).2)
            (s := handlerState e (fetchOpcode s).2)
            (by rw [handlerState_state, fetchOpcode_state]; exact ⟨rfl, rfl⟩) hu).2
          have hf : u'.cyc + e.cycles = s.cyc + c := hc
          omega
        · cases hp
        · cases hp
    | fatal _ _ _ => rw [hp] at h; cases h
    | faulted _ => rw [hp] at h; cases h
    | refused _ => rw [hp] at h; cases h

/-- After a step of a running CPU, a Driver iteration is `driverAfter` of what the step left (R302). -/
theorem driverIteration_of_step {s t : State} {c : Nat} (hh : s.halted = none) (h : step s = .next t)
    (hc : t.cyc = s.cyc + c) : driverIteration s = .next (driverAfter t c) := by
  obtain ⟨hs, hp⟩ := cpuStep_of_step hh h hc
  obtain ⟨sl, hs⟩ := Option.isSome_iff_exists.1 hs
  unfold driverIteration
  rw [hh, hs]
  dsimp only
  rw [hp]

end Sys2Proof.Machine
end

