-- ==== Sys2Proof/Laws/Operands.lean ====
section
/-! SUPPORT. Sys2Proof/Laws/Operands.lean: what each shared operation on an operand leaves, in closed form over the state
it started from, and what the two flag computations with a carry answer. -/

namespace Sys2Proof.Machine

/-- Any continuation of an operand read sees the operand and a state that differs in the PPU interface at most. -/
theorem readOperand_bind {α : Type} (o : Operand) (s : State) (k : Byte → State → α) :
    k (readOperand o s).1 (readOperand o s).2 = k (readOperand o s).1 (s.setPpu (readOperand o s).2.ppu) := by
  rw [← readOperand_state]

theorem accumulate_eq (f : Byte → Byte → Byte → Byte × Byte) (o : Operand) (s : State) :
    accumulate f o s =
      ((s.setPpu (readOperand o s).2.ppu).setA (f s.p s.a (readOperand o s).1).1).setP
        (f s.p s.a (readOperand o s).1).2 :=
  readOperand_bind o s fun m t => (t.setA (f t.p t.a m).1).setP (f t.p t.a m).2

theorem testOperand_eq (f : Byte → Byte → Byte → Byte) (r : Byte) (o : Operand) (s : State) :
    testOperand f r o s = (s.setPpu (readOperand o s).2.ppu).setP (f s.p r (readOperand o s).1) :=
  readOperand_bind o s fun m t => t.setP (f t.p r m)

theorem loadX_eq (o : Operand) (s : State) :
    loadX o s =
      ((s.setPpu (readOperand o s).2.ppu).setX (readOperand o s).1).setP (setZN (readOperand o s).1 s.p) :=
  readOperand_bind o s fun m t => (t.setX m).setP (setZN m t.p)

theorem loadY_eq (o : Operand) (s : State) :
    loadY o s =
      ((s.setPpu (readOperand o s).2.ppu).setY (readOperand o s).1).setP (setZN (readOperand o s).1 s.p) :=
  readOperand_bind o s fun m t => (t.setY m).setP (setZN m t.p)

theorem storeOperand_eq (r : Ref) (v : Byte) (s : State) :
    storeOperand r v s = store (resolve r s).1 v (s.setPpu (resolve r s).2.ppu) := by
  rw [← resolve_state]
  rfl

/-- The cell of a form, loaded from the state after its pointer loads. -/
theorem modifyMemory_eq (f : Byte → Byte → Byte × Byte) (r : Ref) (s : State) :
    modifyMemory f r s =
      (store (resolve r s).1 (f s.p (readOperand (.memory r) s).1).1
        (s.setPpu (readOperand (.memory r) s).2.ppu)).setP (f s.p (readOperand (.memory r) s).1).2 :=
  readOperand_bind (.memory r) s fun m t => (store (resolve r s).1 (f t.p m).1 t).setP (f t.p m).2

/-- ADC by numbers and flags (R180). -/
theorem adcFlags_spec (p a m : Byte) :
    (adcFlags p a m).1.toNat = (a.toNat + m.toNat + carryNat p) % 256 ∧
    getFlag .carry (adcFlags p a m).2 = decide (255 < a.toNat + m.toNat + carryNat p) ∧
    getFlag .overflow (adcFlags p a m).2 =
      (a.getLsbD 7 == m.getLsbD 7 && (adcFlags p a m).1.getLsbD 7 != a.getLsbD 7) ∧
    getFlag .zero (adcFlags p a m).2 = ((adcFlags p a m).1 == 0#8) ∧
    getFlag .negative (adcFlags p a m).2 = (adcFlags p a m).1.getLsbD 7 ∧
    ∀ f ∈ [Flag.interruptDisable, .decimal, .breakBit, .unused], getFlag f (adcFlags p a m).2 = getFlag f p := by
  dsimp only [adcFlags]
  refine ⟨by simp, by simp [getFlag_setZN, getFlag_putFlag], ?_, by simp [getFlag_setZN], by simp [getFlag_setZN],
    by simp [getFlag_setZN, getFlag_putFlag]⟩
  rw [getFlag_setZN, if_neg (by decide), if_neg (by decide), getFlag_putFlag, if_pos rfl]
  generalize BitVec.ofNat 8 (a.toNat + m.toNat + carryNat p) = r
  have h : ∀ x : Byte, (x &&& 0x80#8 != 0#8) = x.getLsbD 7 := by decide
  rw [h]
  simp only [BitVec.getLsbD_and, BitVec.getLsbD_xor]
  cases a.getLsbD 7 <;> cases m.getLsbD 7 <;> cases r.getLsbD 7 <;> rfl

end Sys2Proof.Machine
end

