-- ==== Sys2Proof/Laws/PerInstr.lean ====
section
/-! SUPPORT. Sys2Proof/Laws/PerInstr.lean: the family `TableRow`: the opcode byte that `encode` writes for an instruction
has a table entry with that instruction's mnemonic and mode, of the length of the encoding (R140, R144, R146). -/

namespace Sys2Proof.Laws.TableRow

/-- The first encoded byte has an entry, with the instruction's mnemonic, mode and length. -/
def Statement (i : Instr) : Prop :=
  ∃ e, (encode i).head?.bind opEntry = some e ∧ e.mnemonic = i.mnemonic ∧ e.mode = i.form.mode ∧
    (encode i).length = e.length

theorem adcImm (v : Byte) : Statement (.adcImm v) := ⟨_, rfl, rfl, rfl, rfl⟩
theorem adcZp (b : Byte) : Statement (.adcZp b) := ⟨_, rfl, rfl, rfl, rfl⟩
theorem adcZpX (b : Byte) : Statement (.adcZpX b) := ⟨_, rfl, rfl, rfl, rfl⟩
theorem adcAbs (w : Addr) : Statement (.adcAbs w) := ⟨_, rfl, rfl, rfl, rfl⟩
theorem adcAbsX (w : Addr) : Statement (.adcAbsX w) := ⟨_, rfl, rfl, rfl, rfl⟩
theorem adcAbsY (w : Addr) : Statement (.adcAbsY w) := ⟨_, rfl, rfl, rfl, rfl⟩
theorem adcIndX (b : Byte) : Statement (.adcIndX b) := ⟨_, rfl, rfl, rfl, rfl⟩
theorem adcIndY (b : Byte) : Statement (.adcIndY b) := ⟨_, rfl, rfl, rfl, rfl⟩
theorem sbcImm (v : Byte) : Statement (.sbcImm v) := ⟨_, rfl, rfl, rfl, rfl⟩
theorem sbcZp (b : Byte) : Statement (.sbcZp b) := ⟨_, rfl, rfl, rfl, rfl⟩
theorem sbcZpX (b : Byte) : Statement (.sbcZpX b) := ⟨_, rfl, rfl, rfl, rfl⟩
theorem sbcAbs (w : Addr) : Statement (.sbcAbs w) := ⟨_, rfl, rfl, rfl, rfl⟩
theorem sbcAbsX (w : Addr) : Statement (.sbcAbsX w) := ⟨_, rfl, rfl, rfl, rfl⟩
theorem sbcAbsY (w : Addr) : Statement (.sbcAbsY w) := ⟨_, rfl, rfl, rfl, rfl⟩
theorem sbcIndX (b : Byte) : Statement (.sbcIndX b) := ⟨_, rfl, rfl, rfl, rfl⟩
theorem sbcIndY (b : Byte) : Statement (.sbcIndY b) := ⟨_, rfl, rfl, rfl, rfl⟩
theorem andImm (v : Byte) : Statement (.andImm v) := ⟨_, rfl, rfl, rfl, rfl⟩
theorem andZp (b : Byte) : Statement (.andZp b) := ⟨_, rfl, rfl, rfl, rfl⟩
theorem andZpX (b : Byte) : Statement (.andZpX b) := ⟨_, rfl, rfl, rfl, rfl⟩
theorem andAbs (w : Addr) : Statement (.andAbs w) := ⟨_, rfl, rfl, rfl, rfl⟩
theorem andAbsX (w : Addr) : Statement (.andAbsX w) := ⟨_, rfl, rfl, rfl, rfl⟩
theorem andAbsY (w : Addr) : Statement (.andAbsY w) := ⟨_, rfl, rfl, rfl, rfl⟩
theorem andIndX (b : Byte) : Statement (.andIndX b) := ⟨_, rfl, rfl, rfl, rfl⟩
theorem andIndY (b : Byte) : Statement (.andIndY b) := ⟨_, rfl, rfl, rfl, rfl⟩
theorem oraImm (v : Byte) : Statement (.oraImm v) := ⟨_, rfl, rfl, rfl, rfl⟩
theorem oraZp (b : Byte) : Statement (.oraZp b) := ⟨_, rfl, rfl, rfl, rfl⟩
theorem oraZpX (b : Byte) : Statement (.oraZpX b) := ⟨_, rfl, rfl, rfl, rfl⟩
theorem oraAbs (w : Addr) : Statement (.oraAbs w) := ⟨_, rfl, rfl, rfl, rfl⟩
theorem oraAbsX (w : Addr) : Statement (.oraAbsX w) := ⟨_, rfl, rfl, rfl, rfl⟩
theorem oraAbsY (w : Addr) : Statement (.oraAbsY w) := ⟨_, rfl, rfl, rfl, rfl⟩
theorem oraIndX (b : Byte) : Statement (.oraIndX b) := ⟨_, rfl, rfl, rfl, rfl⟩
theorem oraIndY (b : Byte) : Statement (.oraIndY b) := ⟨_, rfl, rfl, rfl, rfl⟩
theorem eorImm (v : Byte) : Statement (.eorImm v) := ⟨_, rfl, rfl, rfl, rfl⟩
theorem eorZp (b : Byte) : Statement (.eorZp b) := ⟨_, rfl, rfl, rfl, rfl⟩
theorem eorZpX (b : Byte) : Statement (.eorZpX b) := ⟨_, rfl, rfl, rfl, rfl⟩
theorem eorAbs (w : Addr) : Statement (.eorAbs w) := ⟨_, rfl, rfl, rfl, rfl⟩
theorem eorAbsX (w : Addr) : Statement (.eorAbsX w) := ⟨_, rfl, rfl, rfl, rfl⟩
theorem eorAbsY (w : Addr) : Statement (.eorAbsY w) := ⟨_, rfl, rfl, rfl, rfl⟩
theorem eorIndX (b : Byte) : Statement (.eorIndX b) := ⟨_, rfl, rfl, rfl, rfl⟩
theorem eorIndY (b : Byte) : Statement (.eorIndY b) := ⟨_, rfl, rfl, rfl, rfl⟩
theorem bitZp (b : Byte) : Statement (.bitZp b) := ⟨_, rfl, rfl, rfl, rfl⟩
theorem bitAbs (w : Addr) : Statement (.bitAbs w) := ⟨_, rfl, rfl, rfl, rfl⟩
theorem aslAcc : Statement (.aslAcc) := ⟨_, rfl, rfl, rfl, rfl⟩
theorem aslZp (b : Byte) : Statement (.aslZp b) := ⟨_, rfl, rfl, rfl, rfl⟩
theorem aslZpX (b : Byte) : Statement (.aslZpX b) := ⟨_, rfl, rfl, rfl, rfl⟩
theorem aslAbs (w : Addr) : Statement (.aslAbs w) := ⟨_, rfl, rfl, rfl, rfl⟩
theorem aslAbsX (w : Addr) : Statement (.aslAbsX w) := ⟨_, rfl, rfl, rfl, rfl⟩
theorem lsrAcc : Statement (.lsrAcc) := ⟨_, rfl, rfl, rfl, rfl⟩
theorem lsrZp (b : Byte) : Statement (.lsrZp b) := ⟨_, rfl, rfl, rfl, rfl⟩
theorem lsrZpX (b : Byte) : Statement (.lsrZpX b) := ⟨_, rfl, rfl, rfl, rfl⟩
theorem lsrAbs (w : Addr) : Statement (.lsrAbs w) := ⟨_, rfl, rfl, rfl, rfl⟩
theorem lsrAbsX (w : Addr) : Statement (.lsrAbsX w) := ⟨_, rfl, rfl, rfl, rfl⟩
theorem rolAcc : Statement (.rolAcc) := ⟨_, rfl, rfl, rfl, rfl⟩
theorem rolZp (b : Byte) : Statement (.rolZp b) := ⟨_, rfl, rfl, rfl, rfl⟩
theorem rolZpX (b : Byte) : Statement (.rolZpX b) := ⟨_, rfl, rfl, rfl, rfl⟩
theorem rolAbs (w : Addr) : Statement (.rolAbs w) := ⟨_, rfl, rfl, rfl, rfl⟩
theorem rolAbsX (w : Addr) : Statement (.rolAbsX w) := ⟨_, rfl, rfl, rfl, rfl⟩
theorem rorAcc : Statement (.rorAcc) := ⟨_, rfl, rfl, rfl, rfl⟩
theorem rorZp (b : Byte) : Statement (.rorZp b) := ⟨_, rfl, rfl, rfl, rfl⟩
theorem rorZpX (b : Byte) : Statement (.rorZpX b) := ⟨_, rfl, rfl, rfl, rfl⟩
theorem rorAbs (w : Addr) : Statement (.rorAbs w) := ⟨_, rfl, rfl, rfl, rfl⟩
theorem rorAbsX (w : Addr) : Statement (.rorAbsX w) := ⟨_, rfl, rfl, rfl, rfl⟩
theorem cmpImm (v : Byte) : Statement (.cmpImm v) := ⟨_, rfl, rfl, rfl, rfl⟩
theorem cmpZp (b : Byte) : Statement (.cmpZp b) := ⟨_, rfl, rfl, rfl, rfl⟩
theorem cmpZpX (b : Byte) : Statement (.cmpZpX b) := ⟨_, rfl, rfl, rfl, rfl⟩
theorem cmpAbs (w : Addr) : Statement (.cmpAbs w) := ⟨_, rfl, rfl, rfl, rfl⟩
theorem cmpAbsX (w : Addr) : Statement (.cmpAbsX w) := ⟨_, rfl, rfl, rfl, rfl⟩
theorem cmpAbsY (w : Addr) : Statement (.cmpAbsY w) := ⟨_, rfl, rfl, rfl, rfl⟩
theorem cmpIndX (b : Byte) : Statement (.cmpIndX b) := ⟨_, rfl, rfl, rfl, rfl⟩
theorem cmpIndY (b : Byte) : Statement (.cmpIndY b) := ⟨_, rfl, rfl, rfl, rfl⟩
theorem cpxImm (v : Byte) : Statement (.cpxImm v) := ⟨_, rfl, rfl, rfl, rfl⟩
theorem cpxZp (b : Byte) : Statement (.cpxZp b) := ⟨_, rfl, rfl, rfl, rfl⟩
theorem cpxAbs (w : Addr) : Statement (.cpxAbs w) := ⟨_, rfl, rfl, rfl, rfl⟩
theorem cpyImm (v : Byte) : Statement (.cpyImm v) := ⟨_, rfl, rfl, rfl, rfl⟩
theorem cpyZp (b : Byte) : Statement (.cpyZp b) := ⟨_, rfl, rfl, rfl, rfl⟩
theorem cpyAbs (w : Addr) : Statement (.cpyAbs w) := ⟨_, rfl, rfl, rfl, rfl⟩
theorem incZp (b : Byte) : Statement (.incZp b) := ⟨_, rfl, rfl, rfl, rfl⟩
theorem incZpX (b : Byte) : Statement (.incZpX b) := ⟨_, rfl, rfl, rfl, rfl⟩
theorem incAbs (w : Addr) : Statement (.incAbs w) := ⟨_, rfl, rfl, rfl, rfl⟩
theorem incAbsX (w : Addr) : Statement (.incAbsX w) := ⟨_, rfl, rfl, rfl, rfl⟩
theorem decZp (b : Byte) : Statement (.decZp b) := ⟨_, rfl, rfl, rfl, rfl⟩
theorem decZpX (b : Byte) : Statement (.decZpX b) := ⟨_, rfl, rfl, rfl, rfl⟩
theorem decAbs (w : Addr) : Statement (.decAbs w) := ⟨_, rfl, rfl, rfl, rfl⟩
theorem decAbsX (w : Addr) : Statement (.decAbsX w) := ⟨_, rfl, rfl, rfl, rfl⟩
theorem inx : Statement (.inx) := ⟨_, rfl, rfl, rfl, rfl⟩
theorem iny : Statement (.iny) := ⟨_, rfl, rfl, rfl, rfl⟩
theorem dex : Statement (.dex) := ⟨_, rfl, rfl, rfl, rfl⟩
theorem dey : Statement (.dey) := ⟨_, rfl, rfl, rfl, rfl⟩
theorem ldaImm (v : Byte) : Statement (.ldaImm v) := ⟨_, rfl, rfl, rfl, rfl⟩
theorem ldaZp (b : Byte) : Statement (.ldaZp b) := ⟨_, rfl, rfl, rfl, rfl⟩
theorem ldaZpX (b : Byte) : Statement (.ldaZpX b) := ⟨_, rfl, rfl, rfl, rfl⟩
theorem ldaAbs (w : Addr) : Statement (.ldaAbs w) := ⟨_, rfl, rfl, rfl, rfl⟩
theorem ldaAbsX (w : Addr) : Statement (.ldaAbsX w) := ⟨_, rfl, rfl, rfl, rfl⟩
theorem ldaAbsY (w : Addr) : Statement (.ldaAbsY w) := ⟨_, rfl, rfl, rfl, rfl⟩
theorem ldaIndX (b : Byte) : Statement (.ldaIndX b) := ⟨_, rfl, rfl, rfl, rfl⟩
theorem ldaIndY (b : Byte) : Statement (.ldaIndY b) := ⟨_, rfl, rfl, rfl, rfl⟩
theorem ldxImm (v : Byte) : Statement (.ldxImm v) := ⟨_, rfl, rfl, rfl, rfl⟩
theorem ldxZp (b : Byte) : Statement (.ldxZp b) := ⟨_, rfl, rfl, rfl, rfl⟩
theorem ldxZpY (b : Byte) : Statement (.ldxZpY b) := ⟨_, rfl, rfl, rfl, rfl⟩
theorem ldxAbs (w : Addr) : Statement (.ldxAbs w) := ⟨_, rfl, rfl, rfl, rfl⟩
theorem ldxAbsY (w : Addr) : Statement (.ldxAbsY w) := ⟨_, rfl, rfl, rfl, rfl⟩
theorem ldyImm (v : Byte) : Statement (.ldyImm v) := ⟨_, rfl, rfl, rfl, rfl⟩
theorem ldyZp (b : Byte) : Statement (.ldyZp b) := ⟨_, rfl, rfl, rfl, rfl⟩
theorem ldyZpX (b : Byte) : Statement (.ldyZpX b) := ⟨_, rfl, rfl, rfl, rfl⟩
theorem ldyAbs (w : Addr) : Statement (.ldyAbs w) := ⟨_, rfl, rfl, rfl, rfl⟩
theorem ldyAbsX (w : Addr) : Statement (.ldyAbsX w) := ⟨_, rfl, rfl, rfl, rfl⟩
theorem staZp (b : Byte) : Statement (.staZp b) := ⟨_, rfl, rfl, rfl, rfl⟩
theorem staZpX (b : Byte) : Statement (.staZpX b) := ⟨_, rfl, rfl, rfl, rfl⟩
theorem staAbs (w : Addr) : Statement (.staAbs w) := ⟨_, rfl, rfl, rfl, rfl⟩
theorem staAbsX (w : Addr) : Statement (.staAbsX w) := ⟨_, rfl, rfl, rfl, rfl⟩
theorem staAbsY (w : Addr) : Statement (.staAbsY w) := ⟨_, rfl, rfl, rfl, rfl⟩
theorem staIndX (b : Byte) : Statement (.staIndX b) := ⟨_, rfl, rfl, rfl, rfl⟩
theorem staIndY (b : Byte) : Statement (.staIndY b) := ⟨_, rfl, rfl, rfl, rfl⟩
theorem stxZp (b : Byte) : Statement (.stxZp b) := ⟨_, rfl, rfl, rfl, rfl⟩
theorem stxZpY (b : Byte) : Statement (.stxZpY b) := ⟨_, rfl, rfl, rfl, rfl⟩
theorem stxAbs (w : Addr) : Statement (.stxAbs w) := ⟨_, rfl, rfl, rfl, rfl⟩
theorem styZp (b : Byte) : Statement (.styZp b) := ⟨_, rfl, rfl, rfl, rfl⟩
theorem styZpX (b : Byte) : Statement (.styZpX b) := ⟨_, rfl, rfl, rfl, rfl⟩
theorem styAbs (w : Addr) : Statement (.styAbs w) := ⟨_, rfl, rfl, rfl, rfl⟩
theorem bccRel (d : Byte) : Statement (.bccRel d) := ⟨_, rfl, rfl, rfl, rfl⟩
theorem bcsRel (d : Byte) : Statement (.bcsRel d) := ⟨_, rfl, rfl, rfl, rfl⟩
theorem beqRel (d : Byte) : Statement (.beqRel d) := ⟨_, rfl, rfl, rfl, rfl⟩
theorem bneRel (d : Byte) : Statement (.bneRel d) := ⟨_, rfl, rfl, rfl, rfl⟩
theorem bmiRel (d : Byte) : Statement (.bmiRel d) := ⟨_, rfl, rfl, rfl, rfl⟩
theorem bplRel (d : Byte) : Statement (.bplRel d) := ⟨_, rfl, rfl, rfl, rfl⟩
theorem bvcRel (d : Byte) : Statement (.bvcRel d) := ⟨_, rfl, rfl, rfl, rfl⟩
theorem bvsRel (d : Byte) : Statement (.bvsRel d) := ⟨_, rfl, rfl, rfl, rfl⟩
theorem jmpAbs (w : Addr) : Statement (.jmpAbs w) := ⟨_, rfl, rfl, rfl, rfl⟩
theorem jmpInd (w : Addr) : Statement (.jmpInd w) := ⟨_, rfl, rfl, rfl, rfl⟩
theorem jsrAbs (w : Addr) : Statement (.jsrAbs w) := ⟨_, rfl, rfl, rfl, rfl⟩
theorem rts : Statement (.rts) := ⟨_, rfl, rfl, rfl, rfl⟩
theorem brk : Statement (.brk) := ⟨_, rfl, rfl, rfl, rfl⟩
theorem rti : Statement (.rti) := ⟨_, rfl, rfl, rfl, rfl⟩
theorem pha : Statement (.pha) := ⟨_, rfl, rfl, rfl, rfl⟩
theorem php : Statement (.php) := ⟨_, rfl, rfl, rfl, rfl⟩
theorem pla : Statement (.pla) := ⟨_, rfl, rfl, rfl, rfl⟩
theorem plp : Statement (.plp) := ⟨_, rfl, rfl, rfl, rfl⟩
theorem tax : Statement (.tax) := ⟨_, rfl, rfl, rfl, rfl⟩
theorem tay : Statement (.tay) := ⟨_, rfl, rfl, rfl, rfl⟩
theorem tsx : Statement (.tsx) := ⟨_, rfl, rfl, rfl, rfl⟩
theorem txa : Statement (.txa) := ⟨_, rfl, rfl, rfl, rfl⟩
theorem txs : Statement (.txs) := ⟨_, rfl, rfl, rfl, rfl⟩
theorem tya : Statement (.tya) := ⟨_, rfl, rfl, rfl, rfl⟩
theorem clc : Statement (.clc) := ⟨_, rfl, rfl, rfl, rfl⟩
theorem cld : Statement (.cld) := ⟨_, rfl, rfl, rfl, rfl⟩
theorem cli : Statement (.cli) := ⟨_, rfl, rfl, rfl, rfl⟩
theorem clv : Statement (.clv) := ⟨_, rfl, rfl, rfl, rfl⟩
theorem sec : Statement (.sec) := ⟨_, rfl, rfl, rfl, rfl⟩
theorem sed : Statement (.sed) := ⟨_, rfl, rfl, rfl, rfl⟩
theorem sei : Statement (.sei) := ⟨_, rfl, rfl, rfl, rfl⟩
theorem nop : Statement (.nop) := ⟨_, rfl, rfl, rfl, rfl⟩

end Sys2Proof.Laws.TableRow
end

