-- ==== Sys2Proof/Tests/Slice0.lean ====
section
/-! SUPPORT. Sys2Proof/Tests/Slice0.lean: the model's own tests. Expected results come from the spec: its opcode map (R144,
R147), its test vectors (spec file with V41 to VP, named in each theorem) and its rules. After them, for every obligation
with hypotheses, a witness that meets them. -/

namespace Sys2Proof.Machine.Tests

open Sys2Proof Sys2Proof.Machine

/-! WellFormed refuses the ill-formed (R140, R147). -/

theorem test_wf_empty : wellFormedBytes [] = false := by decide
theorem test_wf_undefined_02 : wellFormedBytes [0x02#8, 0x00#8, 0x00#8] = false := by decide
theorem test_wf_undefined_FF : wellFormedBytes [0xFF#8] = false := by decide
theorem test_wf_accepts : wellFormedBytes [0x69#8, 0x50#8] = true := by decide

/-! Decoding words written out from R144: one of each family at least. -/

theorem test_decode_adc : decode [0x71#8, 0x20#8] = .ok (.adcIndY 0x20#8) [] := by decide
theorem test_decode_and : decode [0x3D#8, 0x34#8, 0x12#8] = .ok (.andAbsX 0x1234#16) [] := by decide
theorem test_decode_ror : decode [0x6A#8] = .ok .rorAcc [] := by decide
theorem test_decode_cpx : decode [0xE4#8, 0x80#8] = .ok (.cpxZp 0x80#8) [] := by decide
theorem test_decode_dec : decode [0xCE#8, 0xFF#8, 0x07#8] = .ok (.decAbs 0x07FF#16) [] := by decide
theorem test_decode_ldx : decode [0xB6#8, 0x10#8, 0xEA#8] = .ok (.ldxZpY 0x10#8) [0xEA#8] := by decide
theorem test_decode_sta : decode [0x81#8, 0x7F#8] = .ok (.staIndX 0x7F#8) [] := by decide
theorem test_decode_bvs : decode [0x70#8, 0x80#8] = .ok (.bvsRel 0x80#8) [] := by decide
theorem test_decode_jsr : decode [0x20#8, 0x10#8, 0x80#8] = .ok (.jsrAbs 0x8010#16) [] := by decide
theorem test_decode_rti : decode [0x40#8] = .ok .rti [] := by decide
theorem test_decode_txs : decode [0x9A#8] = .ok .txs [] := by decide
theorem test_decode_undefined : decode [0x1A#8] = .undefinedOpcode 0x1A#8 := by decide
theorem test_decode_truncated : decode [0xAD#8, 0x00#8] = .truncated := by decide
theorem test_decode_table_word : decodeTableWord 24 0x12346C = some (.jmpInd 0x1234#16) := by decide

/-! The spec's instruction vectors V41 to V49: one step each. -/

/-- What a vector's "end" column shows: the registers, `CYC`, and the watched bytes. -/
structure Seen where
  a : Byte
  x : Byte
  y : Byte
  p : Byte
  sp : Byte
  pc : Addr
  cyc : Nat
  mem : List Byte
deriving DecidableEq, Repr

/-- Bytes placed in work RAM or PRG, in order. -/
def placed (l : List (Addr × Byte)) (s : State) : State := l.foldl (fun t c => placeByte c.1 c.2 t) s

/-- The start state of a vector: the defaults of V41 to V60 with the listed differences. -/
def start (a x y p sp : Byte) (pc : Addr) (mem : List (Addr × Byte)) : State :=
  placed mem { State.reset with a := a, x := x, y := y, p := p, sp := sp, pc := pc, slot := some blankSlot }

/-- One step from a start state. -/
def after (s : State) (watch : List Addr) : Option Seen :=
  match step s with
  | .next t => some ⟨t.a, t.x, t.y, t.p, t.sp, t.pc, t.cyc, watch.map fun a => peek a t⟩
  | _ => none

theorem test_ADC_V41_1 : after (start 0x50#8 0x00#8 0x00#8 0x24#8 0xFD#8 0x8000#16 [(0x8000#16, 0x69#8), (0x8001#16, 0x50#8)]) [] =
    some ⟨0xA0#8, 0x00#8, 0x00#8, 0xE4#8, 0xFD#8, 0x8002#16, 2, []⟩ := by decide
theorem test_ADC_V41_8 : after (start 0x01#8 0x00#8 0x20#8 0x24#8 0xFD#8 0x8000#16 [(0x0310#16, 0x7F#8), (0x8000#16, 0x79#8), (0x8001#16, 0xF0#8), (0x8002#16, 0x02#8)]) [] =
    some ⟨0x80#8, 0x00#8, 0x20#8, 0xE4#8, 0xFD#8, 0x8003#16, 4, []⟩ := by decide
theorem test_SBC_V41_10 : after (start 0x50#8 0x00#8 0x00#8 0x25#8 0xFD#8 0x8000#16 [(0x8000#16, 0xE9#8), (0x8001#16, 0xB0#8)]) [] =
    some ⟨0xA0#8, 0x00#8, 0x00#8, 0xE4#8, 0xFD#8, 0x8002#16, 2, []⟩ := by decide
theorem test_SBC_V41_15 : after (start 0x80#8 0x00#8 0x00#8 0x25#8 0xFD#8 0x8000#16 [(0x8000#16, 0xE9#8), (0x8001#16, 0x01#8)]) [] =
    some ⟨0x7F#8, 0x00#8, 0x00#8, 0x65#8, 0xFD#8, 0x8002#16, 2, []⟩ := by decide
theorem test_AND_V42_1 : after (start 0xF0#8 0x00#8 0x00#8 0x24#8 0xFD#8 0x8000#16 [(0x8000#16, 0x29#8), (0x8001#16, 0x0F#8)]) [] =
    some ⟨0x00#8, 0x00#8, 0x00#8, 0x26#8, 0xFD#8, 0x8002#16, 2, []⟩ := by decide
theorem test_ORA_V42_3 : after (start 0x01#8 0x00#8 0x00#8 0x24#8 0xFD#8 0x8000#16 [(0x8000#16, 0x09#8), (0x8001#16, 0x80#8)]) [] =
    some ⟨0x81#8, 0x00#8, 0x00#8, 0xA4#8, 0xFD#8, 0x8002#16, 2, []⟩ := by decide
theorem test_EOR_V42_5 : after (start 0xFF#8 0x00#8 0x00#8 0x24#8 0xFD#8 0x8000#16 [(0x8000#16, 0x49#8), (0x8001#16, 0xFF#8)]) [] =
    some ⟨0x00#8, 0x00#8, 0x00#8, 0x26#8, 0xFD#8, 0x8002#16, 2, []⟩ := by decide
theorem test_BIT_V42_8 : after (start 0x0F#8 0x00#8 0x00#8 0x24#8 0xFD#8 0x8000#16 [(0x0010#16, 0xF0#8), (0x8000#16, 0x24#8), (0x8001#16, 0x10#8)]) [] =
    some ⟨0x0F#8, 0x00#8, 0x00#8, 0xE6#8, 0xFD#8, 0x8002#16, 3, []⟩ := by decide
theorem test_ASL_V43_1 : after (start 0x80#8 0x00#8 0x00#8 0x24#8 0xFD#8 0x8000#16 [(0x8000#16, 0x0A#8)]) [] =
    some ⟨0x00#8, 0x00#8, 0x00#8, 0x27#8, 0xFD#8, 0x8001#16, 2, []⟩ := by decide
theorem test_LSR_V43_4 : after (start 0x01#8 0x00#8 0x00#8 0x24#8 0xFD#8 0x8000#16 [(0x8000#16, 0x4A#8)]) [] =
    some ⟨0x00#8, 0x00#8, 0x00#8, 0x27#8, 0xFD#8, 0x8001#16, 2, []⟩ := by decide
theorem test_LSR_V43_6 : after (start 0x00#8 0x02#8 0x00#8 0x24#8 0xFD#8 0x8000#16 [(0x0012#16, 0x03#8), (0x8000#16, 0x56#8), (0x8001#16, 0x10#8)]) [0x0012#16] =
    some ⟨0x00#8, 0x02#8, 0x00#8, 0x25#8, 0xFD#8, 0x8002#16, 6, [0x01#8]⟩ := by decide
theorem test_ROL_V43_7 : after (start 0x80#8 0x00#8 0x00#8 0x25#8 0xFD#8 0x8000#16 [(0x8000#16, 0x2A#8)]) [] =
    some ⟨0x01#8, 0x00#8, 0x00#8, 0x25#8, 0xFD#8, 0x8001#16, 2, []⟩ := by decide
theorem test_ROL_V43_9 : after (start 0x00#8 0x01#8 0x00#8 0x25#8 0xFD#8 0x8000#16 [(0x0201#16, 0x7F#8), (0x8000#16, 0x3E#8), (0x8001#16, 0x00#8), (0x8002#16, 0x02#8)]) [0x0201#16] =
    some ⟨0x00#8, 0x01#8, 0x00#8, 0xA4#8, 0xFD#8, 0x8003#16, 7, [0xFF#8]⟩ := by decide
theorem test_ROR_V43_10 : after (start 0x01#8 0x00#8 0x00#8 0x24#8 0xFD#8 0x8000#16 [(0x8000#16, 0x6A#8)]) [] =
    some ⟨0x00#8, 0x00#8, 0x00#8, 0x27#8, 0xFD#8, 0x8001#16, 2, []⟩ := by decide
theorem test_ROR_V43_12 : after (start 0x00#8 0x00#8 0x00#8 0x25#8 0xFD#8 0x8000#16 [(0x0200#16, 0x03#8), (0x8000#16, 0x6E#8), (0x8001#16, 0x00#8), (0x8002#16, 0x02#8)]) [0x0200#16] =
    some ⟨0x00#8, 0x00#8, 0x00#8, 0xA5#8, 0xFD#8, 0x8003#16, 6, [0x81#8]⟩ := by decide
theorem test_CMP_V44_1 : after (start 0x40#8 0x00#8 0x00#8 0x24#8 0xFD#8 0x8000#16 [(0x8000#16, 0xC9#8), (0x8001#16, 0x40#8)]) [] =
    some ⟨0x40#8, 0x00#8, 0x00#8, 0x27#8, 0xFD#8, 0x8002#16, 2, []⟩ := by decide
theorem test_CMP_V44_2 : after (start 0x40#8 0x00#8 0x00#8 0x24#8 0xFD#8 0x8000#16 [(0x8000#16, 0xC9#8), (0x8001#16, 0x41#8)]) [] =
    some ⟨0x40#8, 0x00#8, 0x00#8, 0xA4#8, 0xFD#8, 0x8002#16, 2, []⟩ := by decide
theorem test_CPX_V44_6 : after (start 0x00#8 0x05#8 0x00#8 0x24#8 0xFD#8 0x8000#16 [(0x0010#16, 0x06#8), (0x8000#16, 0xE4#8), (0x8001#16, 0x10#8)]) [] =
    some ⟨0x00#8, 0x05#8, 0x00#8, 0xA4#8, 0xFD#8, 0x8002#16, 3, []⟩ := by decide
theorem test_CPY_V44_8 : after (start 0x00#8 0x00#8 0xFF#8 0x24#8 0xFD#8 0x8000#16 [(0x8000#16, 0xC0#8), (0x8001#16, 0x7F#8)]) [] =
    some ⟨0x00#8, 0x00#8, 0xFF#8, 0xA5#8, 0xFD#8, 0x8002#16, 2, []⟩ := by decide
theorem test_INC_V45_1 : after (start 0x00#8 0x00#8 0x00#8 0x24#8 0xFD#8 0x8000#16 [(0x0010#16, 0xFF#8), (0x8000#16, 0xE6#8), (0x8001#16, 0x10#8)]) [0x0010#16] =
    some ⟨0x00#8, 0x00#8, 0x00#8, 0x26#8, 0xFD#8, 0x8002#16, 5, [0x00#8]⟩ := by decide
theorem test_DEC_V45_3 : after (start 0x00#8 0x00#8 0x00#8 0x24#8 0xFD#8 0x8000#16 [(0x0010#16, 0x00#8), (0x8000#16, 0xC6#8), (0x8001#16, 0x10#8)]) [0x0010#16] =
    some ⟨0x00#8, 0x00#8, 0x00#8, 0xA4#8, 0xFD#8, 0x8002#16, 5, [0xFF#8]⟩ := by decide
theorem test_DEC_V45_4 : after (start 0x00#8 0x03#8 0x00#8 0x24#8 0xFD#8 0x8000#16 [(0x0203#16, 0x01#8), (0x8000#16, 0xDE#8), (0x8001#16, 0x00#8), (0x8002#16, 0x02#8)]) [0x0203#16] =
    some ⟨0x00#8, 0x03#8, 0x00#8, 0x26#8, 0xFD#8, 0x8003#16, 7, [0x00#8]⟩ := by decide
theorem test_INX_V45_5 : after (start 0x00#8 0xFF#8 0x00#8 0x24#8 0xFD#8 0x8000#16 [(0x8000#16, 0xE8#8)]) [] =
    some ⟨0x00#8, 0x00#8, 0x00#8, 0x26#8, 0xFD#8, 0x8001#16, 2, []⟩ := by decide
theorem test_INY_V45_6 : after (start 0x00#8 0x00#8 0x7F#8 0x24#8 0xFD#8 0x8000#16 [(0x8000#16, 0xC8#8)]) [] =
    some ⟨0x00#8, 0x00#8, 0x80#8, 0xA4#8, 0xFD#8, 0x8001#16, 2, []⟩ := by decide
theorem test_DEX_V45_7 : after (start 0x00#8 0x01#8 0x00#8 0x24#8 0xFD#8 0x8000#16 [(0x8000#16, 0xCA#8)]) [] =
    some ⟨0x00#8, 0x00#8, 0x00#8, 0x26#8, 0xFD#8, 0x8001#16, 2, []⟩ := by decide
theorem test_DEY_V45_8 : after (start 0x00#8 0x00#8 0x00#8 0x24#8 0xFD#8 0x8000#16 [(0x8000#16, 0x88#8)]) [] =
    some ⟨0x00#8, 0x00#8, 0xFF#8, 0xA4#8, 0xFD#8, 0x8001#16, 2, []⟩ := by decide
theorem test_LDA_V46_1 : after (start 0x55#8 0x00#8 0x00#8 0x24#8 0xFD#8 0x8000#16 [(0x8000#16, 0xA9#8), (0x8001#16, 0x00#8)]) [] =
    some ⟨0x00#8, 0x00#8, 0x00#8, 0x26#8, 0xFD#8, 0x8002#16, 2, []⟩ := by decide
theorem test_LDA_V46_8 : after (start 0x00#8 0x0F#8 0x00#8 0x24#8 0xFD#8 0x8000#16 [(0x00FF#16, 0x00#8), (0x0100#16, 0x03#8), (0x0000#16, 0x02#8), (0x0300#16, 0x77#8), (0x0200#16, 0x66#8), (0x8000#16, 0xA1#8), (0x8001#16, 0xF0#8)]) [] =
    some ⟨0x77#8, 0x0F#8, 0x00#8, 0x24#8, 0xFD#8, 0x8002#16, 6, []⟩ := by decide
theorem test_LDA_V46_10 : after (start 0x00#8 0x00#8 0x01#8 0x24#8 0xFD#8 0x8000#16 [(0x00FF#16, 0x00#8), (0x0100#16, 0x03#8), (0x0000#16, 0x02#8), (0x0301#16, 0x77#8), (0x0201#16, 0x66#8), (0x8000#16, 0xB1#8), (0x8001#16, 0xFF#8)]) [] =
    some ⟨0x77#8, 0x00#8, 0x01#8, 0x24#8, 0xFD#8, 0x8002#16, 5, []⟩ := by decide
theorem test_LDX_V46_12 : after (start 0x00#8 0x00#8 0xF8#8 0x24#8 0xFD#8 0x8000#16 [(0x0008#16, 0x80#8), (0x8000#16, 0xB6#8), (0x8001#16, 0x10#8)]) [] =
    some ⟨0x00#8, 0x80#8, 0xF8#8, 0xA4#8, 0xFD#8, 0x8002#16, 4, []⟩ := by decide
theorem test_LDY_V46_14 : after (start 0x00#8 0x05#8 0x00#8 0x24#8 0xFD#8 0x8000#16 [(0x0205#16, 0x7F#8), (0x8000#16, 0xBC#8), (0x8001#16, 0x00#8), (0x8002#16, 0x02#8)]) [] =
    some ⟨0x00#8, 0x05#8, 0x7F#8, 0x24#8, 0xFD#8, 0x8003#16, 4, []⟩ := by decide
theorem test_STA_V46_18 : after (start 0x42#8 0x00#8 0x00#8 0x24#8 0xFD#8 0x8000#16 [(0x8000#16, 0x8D#8), (0x8001#16, 0x00#8), (0x8002#16, 0x08#8)]) [0x0000#16, 0x1000#16, 0x1800#16] =
    some ⟨0x42#8, 0x00#8, 0x00#8, 0x24#8, 0xFD#8, 0x8003#16, 4, [0x42#8, 0x42#8, 0x42#8]⟩ := by decide
theorem test_STX_V46_21 : after (start 0x00#8 0x07#8 0xFF#8 0x24#8 0xFD#8 0x8000#16 [(0x8000#16, 0x96#8), (0x8001#16, 0x10#8)]) [0x000F#16] =
    some ⟨0x00#8, 0x07#8, 0xFF#8, 0x24#8, 0xFD#8, 0x8002#16, 4, [0x07#8]⟩ := by decide
theorem test_STY_V46_22 : after (start 0x00#8 0x01#8 0x09#8 0x24#8 0xFD#8 0x8000#16 [(0x8000#16, 0x94#8), (0x8001#16, 0x10#8)]) [0x0011#16] =
    some ⟨0x00#8, 0x01#8, 0x09#8, 0x24#8, 0xFD#8, 0x8002#16, 4, [0x09#8]⟩ := by decide
theorem test_STA_V46_24 : after (start 0x5A#8 0xE0#8 0x00#8 0x24#8 0xFD#8 0x8000#16 [(0x0000#16, 0x00#8), (0x0001#16, 0x07#8), (0x8000#16, 0x81#8), (0x8001#16, 0x20#8)]) [0x0700#16] =
    some ⟨0x5A#8, 0xE0#8, 0x00#8, 0x24#8, 0xFD#8, 0x8002#16, 6, [0x5A#8]⟩ := by decide
theorem test_BCC_V47_1 : after (start 0x00#8 0x00#8 0x00#8 0x24#8 0xFD#8 0x8000#16 [(0x8000#16, 0x90#8), (0x8001#16, 0x05#8)]) [] =
    some ⟨0x00#8, 0x00#8, 0x00#8, 0x24#8, 0xFD#8, 0x8007#16, 2, []⟩ := by decide
theorem test_BCS_V47_3 : after (start 0x00#8 0x00#8 0x00#8 0x25#8 0xFD#8 0x8000#16 [(0x8000#16, 0xB0#8), (0x8001#16, 0x05#8)]) [] =
    some ⟨0x00#8, 0x00#8, 0x00#8, 0x25#8, 0xFD#8, 0x8007#16, 2, []⟩ := by decide
theorem test_BEQ_V47_4 : after (start 0x00#8 0x00#8 0x00#8 0x26#8 0xFD#8 0x8010#16 [(0x8010#16, 0xF0#8), (0x8011#16, 0xFE#8)]) [] =
    some ⟨0x00#8, 0x00#8, 0x00#8, 0x26#8, 0xFD#8, 0x8010#16, 2, []⟩ := by decide
theorem test_BNE_V47_5 : after (start 0x00#8 0x00#8 0x00#8 0x24#8 0xFD#8 0x8005#16 [(0x8005#16, 0xD0#8), (0x8006#16, 0xF9#8)]) [] =
    some ⟨0x00#8, 0x00#8, 0x00#8, 0x24#8, 0xFD#8, 0x8000#16, 2, []⟩ := by decide
theorem test_BMI_V47_7 : after (start 0x00#8 0x00#8 0x00#8 0xA4#8 0xFD#8 0x8000#16 [(0x8000#16, 0x30#8), (0x8001#16, 0x7F#8)]) [] =
    some ⟨0x00#8, 0x00#8, 0x00#8, 0xA4#8, 0xFD#8, 0x8081#16, 2, []⟩ := by decide
theorem test_BPL_V47_8 : after (start 0x00#8 0x00#8 0x00#8 0x24#8 0xFD#8 0x8003#16 [(0x8003#16, 0x10#8), (0x8004#16, 0xFB#8)]) [] =
    some ⟨0x00#8, 0x00#8, 0x00#8, 0x24#8, 0xFD#8, 0x8000#16, 2, []⟩ := by decide
theorem test_BVC_V47_9 : after (start 0x00#8 0x00#8 0x00#8 0x24#8 0xFD#8 0x8000#16 [(0x8000#16, 0x50#8), (0x8001#16, 0x80#8)]) [] =
    some ⟨0x00#8, 0x00#8, 0x00#8, 0x24#8, 0xFD#8, 0x7F82#16, 2, []⟩ := by decide
theorem test_BVS_V47_10 : after (start 0x00#8 0x00#8 0x00#8 0x24#8 0xFD#8 0x8000#16 [(0x8000#16, 0x70#8), (0x8001#16, 0x10#8)]) [] =
    some ⟨0x00#8, 0x00#8, 0x00#8, 0x24#8, 0xFD#8, 0x8002#16, 2, []⟩ := by decide
theorem test_BNE_V47_13 : after (start 0x00#8 0x00#8 0x00#8 0x24#8 0xFD#8 0x0000#16 [(0x0000#16, 0xD0#8), (0x0001#16, 0x80#8)]) [] =
    some ⟨0x00#8, 0x00#8, 0x00#8, 0x24#8, 0xFD#8, 0xFF82#16, 2, []⟩ := by decide
theorem test_JMP_V48_1 : after (start 0x00#8 0x00#8 0x00#8 0x24#8 0xFD#8 0x8000#16 [(0x8000#16, 0x4C#8), (0x8001#16, 0x00#8), (0x8002#16, 0x90#8)]) [] =
    some ⟨0x00#8, 0x00#8, 0x00#8, 0x24#8, 0xFD#8, 0x9000#16, 3, []⟩ := by decide
theorem test_JMP_V48_3 : after (start 0x00#8 0x00#8 0x00#8 0x24#8 0xFD#8 0x8000#16 [(0x02FF#16, 0x34#8), (0x0200#16, 0x12#8), (0x0300#16, 0x56#8), (0x8000#16, 0x6C#8), (0x8001#16, 0xFF#8), (0x8002#16, 0x02#8)]) [] =
    some ⟨0x00#8, 0x00#8, 0x00#8, 0x24#8, 0xFD#8, 0x1234#16, 5, []⟩ := by decide
theorem test_JSR_V48_5 : after (start 0x00#8 0x00#8 0x00#8 0x24#8 0xFD#8 0x8000#16 [(0x8000#16, 0x20#8), (0x8001#16, 0x10#8), (0x8002#16, 0x80#8)]) [0x01FD#16, 0x01FC#16] =
    some ⟨0x00#8, 0x00#8, 0x00#8, 0x24#8, 0xFB#8, 0x8010#16, 6, [0x80#8, 0x02#8]⟩ := by decide
theorem test_JSR_V48_6 : after (start 0x00#8 0x00#8 0x00#8 0x24#8 0x00#8 0x80FE#16 [(0x80FE#16, 0x20#8), (0x80FF#16, 0x00#8), (0x8100#16, 0x90#8)]) [0x0100#16, 0x01FF#16] =
    some ⟨0x00#8, 0x00#8, 0x00#8, 0x24#8, 0xFE#8, 0x9000#16, 6, [0x81#8, 0x00#8]⟩ := by decide
theorem test_RTS_V48_7 : after (start 0x00#8 0x00#8 0x00#8 0x24#8 0xFB#8 0x8010#16 [(0x01FC#16, 0x02#8), (0x01FD#16, 0x80#8), (0x8010#16, 0x60#8)]) [] =
    some ⟨0x00#8, 0x00#8, 0x00#8, 0x24#8, 0xFD#8, 0x8003#16, 6, []⟩ := by decide
theorem test_BRK_V48_9 : after (start 0x00#8 0x00#8 0x00#8 0x24#8 0xFD#8 0x8000#16 [(0xFFFE#16, 0x00#8), (0xFFFF#16, 0x90#8), (0x8000#16, 0x00#8)]) [0x01FD#16, 0x01FC#16, 0x01FB#16] =
    some ⟨0x00#8, 0x00#8, 0x00#8, 0x24#8, 0xFA#8, 0x9000#16, 7, [0x80#8, 0x02#8, 0x34#8]⟩ := by decide
theorem test_RTI_V48_11 : after (start 0x00#8 0x00#8 0x00#8 0x24#8 0xFA#8 0x9000#16 [(0x01FB#16, 0x34#8), (0x01FC#16, 0x02#8), (0x01FD#16, 0x80#8), (0x9000#16, 0x40#8)]) [] =
    some ⟨0x00#8, 0x00#8, 0x00#8, 0x34#8, 0xFD#8, 0x8002#16, 6, []⟩ := by decide
theorem test_PHA_V49_1 : after (start 0x42#8 0x00#8 0x00#8 0x24#8 0xFD#8 0x8000#16 [(0x8000#16, 0x48#8)]) [0x01FD#16] =
    some ⟨0x42#8, 0x00#8, 0x00#8, 0x24#8, 0xFC#8, 0x8001#16, 3, [0x42#8]⟩ := by decide
theorem test_PHP_V49_3 : after (start 0x00#8 0x00#8 0x00#8 0x24#8 0xFD#8 0x8000#16 [(0x8000#16, 0x08#8)]) [0x01FD#16] =
    some ⟨0x00#8, 0x00#8, 0x00#8, 0x24#8, 0xFC#8, 0x8001#16, 3, [0x34#8]⟩ := by decide
theorem test_PLA_V49_5 : after (start 0x11#8 0x00#8 0x00#8 0x24#8 0xFC#8 0x8000#16 [(0x01FD#16, 0x00#8), (0x8000#16, 0x68#8)]) [] =
    some ⟨0x00#8, 0x00#8, 0x00#8, 0x26#8, 0xFD#8, 0x8001#16, 4, []⟩ := by decide
theorem test_PLP_V49_7 : after (start 0x00#8 0x00#8 0x00#8 0x24#8 0xFC#8 0x8000#16 [(0x01FD#16, 0xC3#8), (0x8000#16, 0x28#8)]) [] =
    some ⟨0x00#8, 0x00#8, 0x00#8, 0xE3#8, 0xFD#8, 0x8001#16, 4, []⟩ := by decide
theorem test_TAX_V49_10 : after (start 0x80#8 0x00#8 0x00#8 0x24#8 0xFD#8 0x8000#16 [(0x8000#16, 0xAA#8)]) [] =
    some ⟨0x80#8, 0x80#8, 0x00#8, 0xA4#8, 0xFD#8, 0x8001#16, 2, []⟩ := by decide
theorem test_TAY_V49_11 : after (start 0x00#8 0x00#8 0x55#8 0x24#8 0xFD#8 0x8000#16 [(0x8000#16, 0xA8#8)]) [] =
    some ⟨0x00#8, 0x00#8, 0x00#8, 0x26#8, 0xFD#8, 0x8001#16, 2, []⟩ := by decide
theorem test_TSX_V49_12 : after (start 0x00#8 0x00#8 0x00#8 0x24#8 0xFD#8 0x8000#16 [(0x8000#16, 0xBA#8)]) [] =
    some ⟨0x00#8, 0xFD#8, 0x00#8, 0xA4#8, 0xFD#8, 0x8001#16, 2, []⟩ := by decide
theorem test_TXA_V49_13 : after (start 0xFF#8 0x01#8 0x00#8 0xA4#8 0xFD#8 0x8000#16 [(0x8000#16, 0x8A#8)]) [] =
    some ⟨0x01#8, 0x01#8, 0x00#8, 0x24#8, 0xFD#8, 0x8001#16, 2, []⟩ := by decide
theorem test_TXS_V49_14 : after (start 0x00#8 0x00#8 0x00#8 0x24#8 0xFD#8 0x8000#16 [(0x8000#16, 0x9A#8)]) [] =
    some ⟨0x00#8, 0x00#8, 0x00#8, 0x24#8, 0x00#8, 0x8001#16, 2, []⟩ := by decide
theorem test_TYA_V49_16 : after (start 0x00#8 0x00#8 0xFF#8 0x24#8 0xFD#8 0x8000#16 [(0x8000#16, 0x98#8)]) [] =
    some ⟨0xFF#8, 0x00#8, 0xFF#8, 0xA4#8, 0xFD#8, 0x8001#16, 2, []⟩ := by decide
theorem test_CLC_V49_17 : after (start 0x00#8 0x00#8 0x00#8 0x25#8 0xFD#8 0x8000#16 [(0x8000#16, 0x18#8)]) [] =
    some ⟨0x00#8, 0x00#8, 0x00#8, 0x24#8, 0xFD#8, 0x8001#16, 2, []⟩ := by decide
theorem test_CLD_V49_18 : after (start 0x00#8 0x00#8 0x00#8 0x2C#8 0xFD#8 0x8000#16 [(0x8000#16, 0xD8#8)]) [] =
    some ⟨0x00#8, 0x00#8, 0x00#8, 0x24#8, 0xFD#8, 0x8001#16, 2, []⟩ := by decide
theorem test_CLI_V49_19 : after (start 0x00#8 0x00#8 0x00#8 0x24#8 0xFD#8 0x8000#16 [(0x8000#16, 0x58#8)]) [] =
    some ⟨0x00#8, 0x00#8, 0x00#8, 0x20#8, 0xFD#8, 0x8001#16, 2, []⟩ := by decide
theorem test_CLV_V49_20 : after (start 0x00#8 0x00#8 0x00#8 0x64#8 0xFD#8 0x8000#16 [(0x8000#16, 0xB8#8)]) [] =
    some ⟨0x00#8, 0x00#8, 0x00#8, 0x24#8, 0xFD#8, 0x8001#16, 2, []⟩ := by decide
theorem test_SEC_V49_21 : after (start 0x00#8 0x00#8 0x00#8 0x24#8 0xFD#8 0x8000#16 [(0x8000#16, 0x38#8)]) [] =
    some ⟨0x00#8, 0x00#8, 0x00#8, 0x25#8, 0xFD#8, 0x8001#16, 2, []⟩ := by decide
theorem test_SED_V49_22 : after (start 0x00#8 0x00#8 0x00#8 0x24#8 0xFD#8 0x8000#16 [(0x8000#16, 0xF8#8)]) [] =
    some ⟨0x00#8, 0x00#8, 0x00#8, 0x2C#8, 0xFD#8, 0x8001#16, 2, []⟩ := by decide
theorem test_SEI_V49_23 : after (start 0x00#8 0x00#8 0x00#8 0x20#8 0xFD#8 0x8000#16 [(0x8000#16, 0x78#8)]) [] =
    some ⟨0x00#8, 0x00#8, 0x00#8, 0x24#8, 0xFD#8, 0x8001#16, 2, []⟩ := by decide
theorem test_NOP_V49_24 : after (start 0x00#8 0x00#8 0x00#8 0x24#8 0xFD#8 0x8000#16 [(0x8000#16, 0xEA#8)]) [] =
    some ⟨0x00#8, 0x00#8, 0x00#8, 0x24#8, 0xFD#8, 0x8001#16, 2, []⟩ := by decide

/-! Undefined opcodes and host operations (V60, VH). -/

/-- V60-3: `FF` at 0x0200. -/
theorem test_V60_3 :
    cpuStep (start 0x00#8 0x00#8 0x00#8 0x24#8 0xFD#8 0x0200#16 [(0x0200#16, 0xFF#8)]) =
      .fatal ((((start 0x00#8 0x00#8 0x00#8 0x24#8 0xFD#8 0x0200#16 [(0x0200#16, 0xFF#8)]).setPc 0x0201#16)).setHalted
        (some (0xFF#8, 0x0200#16))) 0xFF#8 0x0200#16 := by decide

/-- VH-1: `reset()` from a halted CPU. -/
theorem test_VH_1 :
    let s := (start 0x77#8 0x66#8 0x55#8 0xFF#8 0x12#8 0x1234#16 [(0xFFFC#16, 0x34#8), (0xFFFD#16, 0x92#8)]).setCyc 999
    let t := resetBlock (s.setHalted (some (0x02#8, 0x8000#16)))
    t = (((s.setP 0x24#8).setSp 0xFD#8).setPc 0x9234#16).setCyc 0 := by decide

/-- The host state of the VH vectors. -/
def hostStart (p sp : Byte) (pc : Addr) (mem : List (Addr × Byte)) : State := start 0x00#8 0x00#8 0x00#8 p sp pc mem

/-- What the VH vectors show. -/
def hostSeen (t : State) (watch : List Addr) : Byte × Byte × Addr × Nat × List Byte :=
  (t.p, t.sp, t.pc, t.cyc, watch.map fun a => peek a t)

/-- VH-4: the stack pointer wraps inside page 1. -/
theorem test_VH_4 :
    hostSeen (nmi (hostStart 0x24#8 0x01#8 0x8123#16 [(0xFFFA#16, 0x10#8), (0xFFFB#16, 0x90#8)]))
      [0x0101#16, 0x0100#16, 0x01FF#16] = (0x24#8, 0xFE#8, 0x9010#16, 7, [0x81#8, 0x23#8, 0x24#8]) := by decide

/-- VH-6: bit 4 is clear in the copy that `irq()` pushes. -/
theorem test_VH_6 :
    hostSeen (irq (hostStart 0x30#8 0xFD#8 0x8123#16 [(0xFFFE#16, 0x00#8), (0xFFFF#16, 0x90#8)]))
      [0x01FD#16, 0x01FC#16, 0x01FB#16] = (0x34#8, 0xFA#8, 0x9000#16, 7, [0x81#8, 0x23#8, 0x20#8]) := by decide

/-- R35 over R291: construction, then `reset()`. -/
theorem test_reset : resetBlock State.constructed = State.reset := by decide

/-! The Bus, the mappers, the PPU interface (VB, VM, VP) and the image (VC). -/

/-- Stores in order. -/
def stores (l : List (Addr × Byte)) (s : State) : State := l.foldl (fun t c => store c.1 c.2 t) s

/-- A block with cartridge `c` and engine `e`. -/
def withCart (prgBanks chrBanks : Nat) (e : Engine) : State :=
  { State.reset with
    slot := some { cart := { prgBanks := prgBanks, chrBanks := chrBanks, ramBanks := 0, mapperId := 0#8
                             mirroring := .vertical, prg := [], chr := [] }, engine := e, chrRam := [] } }

/-- The engine of a block. -/
def engine? (s : State) : Option Engine := s.slot.map Slot.engine

/-- VB-14: a word load in the PPU window, with its side effect. -/
theorem test_VB_14 :
    let s := State.reset.setPpu { Ppu.constructed with status := 0x80#8, w := true }
    loadWord 0x2001#16 s = (0x8000#16, State.reset) := by decide

/-- VM1-8: only the address of the fifth write selects the register. -/
theorem test_VM1_8 :
    engine? (stores [(0x8000#16, 0x00#8), (0xA000#16, 0x01#8), (0xC000#16, 0x00#8), (0xE000#16, 0x00#8),
      (0xFFFF#16, 0x00#8)] (withCart 8 4 (.m1 M1Regs.powerOn))) =
      some (.m1 { M1Regs.powerOn with prgBank := 0x02#5 }) := by decide

/-- VM1-7: a reset in mid-sequence. -/
theorem test_VM1_7 :
    engine? (stores [(0xE000#16, 0x01#8), (0xE000#16, 0x01#8), (0xE000#16, 0xFF#8)]
      (withCart 8 4 (.m1 { M1Regs.powerOn with control := 0x00#5, prgBank := 0x03#5 }))) =
      some (.m1 { M1Regs.powerOn with prgBank := 0x03#5 }) := by decide

/-- VM1-9, VM2-3: bank numbers are reduced modulo the bank count; the last bank is fixed. -/
theorem test_VM_banks :
    (withCart 8 4 (.m1 { M1Regs.powerOn with prgBank := 0x0B#5 })).slot.map (fun sl => sl.prgIndex 0x8000#16 / 0x4000) =
      some 3 ∧
    (withCart 8 0 (.m2 0x0A#8)).slot.map (fun sl => (sl.prgIndex 0x8000#16 / 0x4000, sl.prgIndex 0xC000#16 / 0x4000)) =
      some (2, 7) ∧
    (withCart 2 4 (.m3 0x06#8)).slot.map (fun sl => sl.chrIndex 0x1FFF / 0x2000) = some 2 := by decide

/-- VP-3: a status read resets the toggle in mid-sequence. -/
theorem test_VP_3 :
    let s := (load 0x2002#16 (stores [(0x2006#16, 0x21#8)] State.reset)).2
    (s.ppu.w, s.ppu.vramAddr) = (false, 0x2100#14) ∧
    (stores [(0x2006#16, 0x3F#8), (0x2006#16, 0x00#8)] s).ppu.vramAddr = 0x3F00#14 := by decide

/-- VP-7: the buffered read. -/
theorem test_VP_7 :
    let s := (withCart 2 0 .m0).setPpu
      { Ppu.constructed with nt := [(0x108, 0xAA#8), (0x109, 0xBB#8)], readBuf := 0x11#8, vramAddr := 0x2108#14 }
    let r1 := load 0x2007#16 s
    let r2 := load 0x2007#16 r1.2
    let r3 := load 0x2007#16 r2.2
    (r1.1, r2.1, r3.1, r3.2.ppu.readBuf, r3.2.ppu.vramAddr) = (0x11#8, 0xAA#8, 0xBB#8, 0x00#8, 0x210B#14) := by decide

/-- VP-10: the palette alias, and the address wraps in 14 bits. -/
theorem test_VP_10 :
    let s := stores [(0x2007#16, 0x01#8)] (State.reset.setPpu
      { Ppu.constructed with ctrl := 0x04#8, vramAddr := 0x3FF0#14 })
    (s.ppu.pal, s.ppu.vramAddr) = ([(0, 0x01#8)], 0x0010#14) := by decide

/-- VP-13: horizontal mirroring. -/
theorem test_VP_13 :
    [0x2000#14, 0x2400#14, 0x27FF#14, 0x2800#14, 0x2BFF#14, 0x2C00#14, 0x2FFF#14, 0x3400#14].map
      (ntIndex .horizontal) = [0x000, 0x000, 0x3FF, 0x400, 0x7FF, 0x400, 0x7FF, 0x000] := by decide

/-- VP-23: OAM DMA from the PPU register window, with the side effects of its loads. -/
theorem test_VP_23 :
    let t := store 0x4014#16 0x20#8 ((withCart 2 0 .m0).setPpu { Ppu.constructed with status := 0x80#8 })
    (t.ppu.oam, t.ppu.vramAddr, t.ppu.status, t.ppu.dmaDone) = ([(0x02, 0x80#8)], 32#14, 0x00#8, true) := by decide +kernel

/-- VP-24, VP-25: vblank start, with the NMI gate. -/
theorem test_VP_24 :
    let u := { Ppu.constructed with scanline := 241, dot := 0, ctrl := 0x80#8 }
    u.tick = { u with dot := 1, status := 0x80#8, nmiRequest := true } ∧
    ({ u with ctrl := 0x00#8 } : Ppu).tick.nmiRequest = false := by decide

/-- VP-26, VP-27: vblank end leaves the NMI request; the frame wraps. -/
theorem test_VP_26 :
    let u := { Ppu.constructed with scanline := 261, dot := 0, status := 0x80#8, nmiRequest := true }
    u.tick = { u with dot := 1, status := 0x00#8, newFrame := true } ∧
    ({ u with dot := 340 } : Ppu).tick = { u with dot := 0, scanline := 0 } := by decide

/-- The header bytes of the VC vectors: the magic, bytes 4 to 7, and zeros. -/
def image (b4 b5 b6 b7 : Byte) : List Byte := imageMagic ++ [b4, b5, b6, b7] ++ List.replicate 8 0x00#8

/-- VC-1: D0's own example. -/
theorem test_VC_1 :
    parseHeader (image 0x02#8 0x01#8 0x11#8 0x00#8) =
      { magicOk := true, prgBanks := 2, chrBanks := 1, ramBanks := 0, mapperId := 0x01#8, mirroring := .vertical } ∧
    engineOf 0x01#8 = some (.m1 M1Regs.powerOn) := by decide

/-- VC-6, VC-8, VC-9, VC-10: the refused images. -/
theorem test_VC_refused :
    (parseHeader (image 0x02#8 0x01#8 0x20#8 0x40#8)).error 40976 = some (.unsupportedMapper 0x42#8) ∧
    (parseHeader (image 0x00#8 0x01#8 0x00#8 0x00#8)).error 40976 = some .noPrg ∧
    (parseHeader (image 0x02#8 0x01#8 0x00#8 0x00#8)).error 40975 = some .tooShort ∧
    (parseHeader (0x4D#8 :: (image 0x02#8 0x01#8 0x00#8 0x00#8).tail)).error 40976 = some .badMagic ∧
    (parseHeader (image 0x02#8 0x01#8 0x00#8 0x00#8)).error 40976 = none := by decide

/-! Witnesses: for every obligation with hypotheses, values that meet all of them together. -/

/-- A running block with a cartridge: `EA` (NOP) at 0x8000. -/
def atNop : State := start 0x00#8 0x00#8 0x00#8 0x24#8 0xFD#8 0x8000#16 [(0x8000#16, 0xEA#8)]

/-- What a step of it leaves (R249). -/
def afterNop : State := (atNop.setPc 0x8001#16).setCyc 2

/-- The undefined opcode 0x02 at 0x8000. -/
def atUndefined : State := start 0x00#8 0x00#8 0x00#8 0x24#8 0xFD#8 0x8000#16 [(0x8000#16, 0x02#8)]

theorem witness_atNop : atNop.wf = true ∧ atNop.unusedSet = true ∧ atNop.halted = none ∧ atNop.slot.isSome = true ∧
    step atNop = .next afterNop := ⟨by decide, by decide, by decide, by decide, rfl⟩

theorem witness_DecodeEncodeRoundTrip : (Instr.jmpInd 0xFFFF#16).wellFormed = true := by decide

theorem witness_DecodedBytesAreTheEncoding : decode [0x79#8, 0xFF#8, 0x00#8, 0xEA#8] = .ok (.adcAbsY 0x00FF#16) [0xEA#8] := by
  decide

theorem witness_UndefinedOpcodesAreRejected : 0x02#8 ∈ undefinedOpcodes ∧ 0xFF#8 ∈ undefinedOpcodes ∧
    0xEA#8 ∉ undefinedOpcodes ∧ 0x00#8 ∉ undefinedOpcodes := by decide

theorem witness_StepRunsDecodedInstruction : ∃ sl e, atNop.halted = none ∧ atNop.slot = some sl ∧
    opEntry (load atNop.pc atNop).1 = some e := ⟨_, _, by decide, rfl, rfl⟩

theorem witness_StepRunsTheBytesAtPc : ∃ sl, atNop.halted = none ∧ atNop.slot = some sl ∧
    (∀ n : Nat, n < 3 → ∀ r, region (atNop.pc + BitVec.ofNat 16 n) ≠ .ppu r) ∧
    decode [peek atNop.pc atNop, peek (atNop.pc + 1#16) atNop, peek (atNop.pc + 2#16) atNop] =
      .ok .nop [0x00#8, 0x00#8] :=
  ⟨_, by decide, rfl, by decide, by decide⟩

theorem witness_UndefinedOpcodeHalts : ∃ sl, atUndefined.halted = none ∧ atUndefined.slot = some sl ∧
    (load atUndefined.pc atUndefined).1 ∈ undefinedOpcodes := ⟨_, by decide, rfl, by decide⟩

theorem witness_NothingElseFaults : step atUndefined = .fault (.fatalDispatch 0x02#8 0x8000#16) := rfl

theorem witness_HaltedOrWithoutCartridge : (atNop.setHalted (some (0x02#8, 0x8000#16))).halted = some (0x02#8, 0x8000#16) ∧
    State.reset.slot = none ∧ State.reset.halted = none ∧ 0x4020 ≤ (0x4020#16).toNat ∧ 0x4020 ≤ (0xFFFF#16).toNat := by
  decide

theorem witness_StepAddsTheBaseCost : atNop.halted = none ∧ step atNop = .next afterNop := ⟨by decide, rfl⟩

theorem witness_StepKeepsTheBlockWellFormed : atNop.wf = true ∧ step atNop = .next afterNop := ⟨by decide, rfl⟩

/-- What a Driver iteration of it leaves (R302): six PPU cycles. -/
def afterDriver : State := afterNop.setPpu { Ppu.constructed with dot := 6 }

/-- An accepted image: M0, one PRG bank, one CHR bank. -/
def smallImage : List Byte := image 0x01#8 0x01#8 0x00#8 0x00#8 ++ List.replicate 24576 0x00#8

theorem smallImage_installs (s : State) : ∃ t, installCartridge smallImage s = .installed t := by
  have hl : smallImage.length = 24592 := by
    rw [smallImage, List.length_append, List.length_replicate]
    rfl
  have hp : parseHeader smallImage =
      { magicOk := true, prgBanks := 1, chrBanks := 1, ramBanks := 0, mapperId := 0x00#8, mirroring := .horizontal } := rfl
  have he : (parseHeader smallImage).error smallImage.length = none := by
    rw [hl, hp]
    decide
  have hm : engineOf (parseHeader smallImage).mapperId = some .m0 := rfl
  exact ⟨_, by simp only [installCartridge, he, hm]; rfl⟩

theorem witness_HostOperationsKeepTheBlockWellFormed : atNop.wf = true ∧ driverIteration atNop = .next afterDriver ∧
    ∃ t, installCartridge smallImage atNop = .installed t := ⟨by decide, rfl, smallImage_installs atNop⟩

theorem witness_UnusedFlagStaysSet : atNop.unusedSet = true ∧ step atNop = .next afterNop ∧
    driverIteration atNop = .next afterDriver := ⟨by decide, rfl, rfl⟩

theorem witness_CartridgeIsNeverMutated : step atNop = .next afterNop ∧ driverIteration atNop = .next afterDriver ∧
    ∃ t, installCartridge smallImage atNop = .installed t := ⟨rfl, rfl, smallImage_installs atNop⟩

theorem witness_StepLeavesThePpuClockToTheDriver :
    let s := atNop.setPpu { Ppu.constructed with dmaDone := true }
    step s = .next ((s.setPc 0x8001#16).setCyc 2) ∧ s.ppu.dmaDone = true := ⟨rfl, rfl⟩

/-- The instruction statements ask for a mnemonic only. -/
theorem witness_InstructionStatements :
    (Instr.adcImm 0xFF#8).mnemonic = .adc ∧ (Instr.sbcIndY 0xFF#8).mnemonic = .sbc ∧ (Instr.andZp 0x00#8).mnemonic = .and ∧
    (Instr.oraIndX 0xFF#8).mnemonic = .ora ∧ (Instr.eorAbs 0xFFFF#16).mnemonic = .eor ∧
    (Instr.bitAbs 0x2002#16).mnemonic = .bit ∧ Instr.aslAcc.mnemonic = .asl ∧ (Instr.lsrZp 0xFF#8).mnemonic = .lsr ∧
    (Instr.rolAbsX 0xFFFF#16).mnemonic = .rol ∧ (Instr.rorZpX 0x00#8).mnemonic = .ror ∧
    (Instr.cmpImm 0x80#8).mnemonic = .cmp ∧ (Instr.cpxZp 0x00#8).mnemonic = .cpx ∧ (Instr.cpyAbs 0x0000#16).mnemonic = .cpy ∧
    (Instr.incZp 0xFF#8).mnemonic = .inc ∧ (Instr.decAbs 0x1FFF#16).mnemonic = .dec ∧
    (Instr.ldaImm 0x00#8).mnemonic = .lda ∧ (Instr.ldxZpY 0xFF#8).mnemonic = .ldx ∧ (Instr.ldyAbsX 0xFFFF#16).mnemonic = .ldy ∧
    (Instr.staAbs 0x4014#16).mnemonic = .sta ∧ (Instr.stxZpY 0xFF#8).mnemonic = .stx ∧
    (Instr.styZp 0x00#8).mnemonic = .sty := by decide

theorem witness_DecimalFlagDoesNotChangeArithmetic : ∃ t, (Instr.adcImm 0x50#8).mnemonic = .adc ∧
    exec (.adcImm 0x50#8) atNop = .next t := ⟨_, by decide, rfl⟩

theorem witness_BranchInstructions : branchCondition (Instr.bneRel 0x80#8).mnemonic 0x24#8 = some true ∧
    branchCondition (Instr.bneRel 0x7F#8).mnemonic 0x26#8 = some false := by decide

theorem witness_ReturnsUndoTheirEntries : ∃ t u, atNop.halted = none ∧ exec (.jsrAbs 0x8010#16) atNop = .next t ∧
    exec .brk atNop = .next u ∧ (atNop.setP 0x20#8).halted = none ∧
    getFlag .interruptDisable (atNop.setP 0x20#8).p = false := ⟨_, _, by decide, rfl, rfl, by decide, by decide⟩

theorem witness_FlagInstructionsAndNop : (Instr.clv, Flag.overflow, false) ∈
    [(Instr.clc, Flag.carry, false), (.cld, .decimal, false), (.cli, .interruptDisable, false),
      (.clv, .overflow, false), (.sec, .carry, true), (.sed, .decimal, true), (.sei, .interruptDisable, true)] := by decide

/-- Each register, and each flag, does change somewhere. -/
theorem witness_RegisterAndFlagWriters : ∃ t, exec .plp (atNop.setSp 0xFF#8) = .next t ∧ t.sp ≠ 0xFF#8 ∧
    getFlag .interruptDisable t.p ≠ getFlag .interruptDisable atNop.p := ⟨_, rfl, by decide, by decide⟩

theorem witness_FlagWriters : ∃ t u, exec (.ldaImm 0x00#8) atNop = .next t ∧
    getFlag .zero t.p ≠ getFlag .zero atNop.p ∧ exec (.ldaImm 0x80#8) atNop = .next u ∧
    getFlag .negative u.p ≠ getFlag .negative atNop.p ∧ (Instr.clc.mnemonic, Flag.carry) = (.clc, .carry) ∧
    Flag.zero ≠ Flag.carry := ⟨_, _, rfl, by decide, rfl, by decide, rfl, by decide⟩

theorem witness_NonStoringInstructionsKeepMemory : ∃ t, writesMemory (.ldaAbs 0x2007#16) = false ∧
    exec (.ldaAbs 0x2007#16) atNop = .next t := ⟨_, by decide, rfl⟩

/-- One form for each clause, at both ends of its range. -/
theorem witness_StoringInstructionsWriteOneCell :
    ∀ w ∈ [0x0000#16, 0x1FFF#16, 0x2000#16, 0x3FFF#16, 0x4000#16, 0x401F#16, 0x4020#16, 0x7FFF#16, 0x8000#16],
      storesOperand (Instr.staAbs w).mnemonic = true ∧ (Instr.staAbs w).form = .memory (.absolute w) ∧
      (resolve (.absolute w) atNop).1 = w ∧ ∃ t, exec (.staAbs w) atNop = .next t :=
  fun _ _ => ⟨rfl, rfl, rfl, _, rfl⟩

theorem witness_RamIsMirrored : (0x0000#16).toNat ≤ 0x1FFF ∧ (0x1FFF#16).toNat ≤ 0x1FFF ∧
    (0x0800#16).toNat % 2048 = (0x0000#16).toNat % 2048 ∧ (0x1FFF#16).toNat % 2048 ≠ (0x0000#16).toNat % 2048 := by decide

/-- One address for each register, at both ends of the window; a VRAM address at each side of the palette base. -/
theorem witness_BusWindows :
    (load 0x2002#16 (atNop.setPpu { Ppu.constructed with status := 0x80#8 })).2 ≠
      atNop.setPpu { Ppu.constructed with status := 0x80#8 } ∧
    [0x2000#16, 0x2001#16, 0x3FFA#16, 0x3FFB#16, 0x2004#16, 0x2005#16, 0x3FFE#16, 0x2007#16, 0x3FFF#16].map
      (fun a => a.toNat % 8) = [0, 1, 2, 3, 4, 5, 6, 7, 7] ∧
    0x2000 ≤ (0x2000#16).toNat ∧ (0x3FFF#16).toNat ≤ 0x3FFF ∧ (0x3EFF#14).toNat < 0x3F00 ∧ 0x3F00 ≤ (0x3F00#14).toNat ∧
    atNop.slot.isSome = true ∧ 0x4000 ≤ (0x4000#16).toNat ∧ (0x7FFF#16).toNat < 0x8000 ∧ 0x7FFF#16 ≠ 0x4014#16 := by decide

theorem witness_SerialEngineLoadsARegister : engine? (withCart 8 4 (.m1 M1Regs.powerOn)) = some (.m1 M1Regs.powerOn) ∧
    M1Regs.powerOn.shift = 0#5 ∧ M1Regs.powerOn.count = 0 ∧ (0x7FFF#16).toNat < 0x8000 ∧
    (∀ b ∈ [0x7F#8, 0x00#8, 0x01#8, 0x7E#8, 0x7F#8], b.getLsbD 7 = false) ∧ (0x80#8).getLsbD 7 = true ∧
    (∀ x ∈ [0x8000#16, 0x9FFF#16, 0xA000#16, 0xC000#16, 0xFFFF#16], 0x8000 ≤ x.toNat) ∧
    [0x8000#16, 0x9FFF#16, 0xA000#16, 0xC000#16, 0xFFFF#16].map (fun a => (a.toNat / 8192) % 4) = [0, 0, 1, 2, 3] :=
  ⟨rfl, rfl, rfl, by decide, by decide, by decide, by simp, by decide⟩

/-- One `control` for each PRG and CHR mode. -/
theorem witness_SerialEngineBanks : ((withCart 8 4 (.m1 M1Regs.powerOn)).slot.map Slot.engine) = some (.m1 M1Regs.powerOn) ∧
    0x8000 ≤ (0x8000#16).toNat ∧ 0x8000 ≤ (0xFFFF#16).toNat ∧ (0xBFFF#16).toNat < 0xC000 ∧
    [0x00#5, 0x04#5, 0x08#5, 0x0C#5, 0x10#5].map (fun c => (c.getLsbD 2, c.getLsbD 3, c.getLsbD 4)) =
      [(false, false, false), (true, false, false), (false, true, false), (true, true, false), (false, false, true)] := by
  decide

theorem witness_FixedAndDirectEngines : engine? (withCart 1 1 .m0) = some .m0 ∧ engine? (withCart 2 1 .m0) = some .m0 ∧
    engine? (withCart 8 0 (.m2 0xFF#8)) = some (.m2 0xFF#8) ∧ engine? (withCart 1 4 (.m3 0xFF#8)) = some (.m3 0xFF#8) ∧
    0x8000 ≤ (0x8000#16).toNat ∧ (0xBFFF#16).toNat < 0xC000 ∧ 0xC000 ≤ (0xC000#16).toNat ∧ 0x1FFF < 0x2000 := by decide

theorem witness_ChrMemory : ((withCart 2 0 .m0).slot.map fun sl => sl.cart.chrBanks) = some 0 ∧
    ((withCart 2 1 .m0).slot.map fun sl => sl.cart.chrBanks) = some 1 := by decide

theorem witness_MapperOffsetsAreInRange : blankSlot.wf = true ∧ 0x8000 ≤ (0x8000#16).toNat ∧ 0x1FFF < 0x2000 := by decide

/-- One address for each register; a VRAM address at both ends of each range; CHR RAM and CHR ROM. -/
theorem witness_PpuRegisterStores :
    [0x2000#16, 0x3FF9#16, 0x2002#16, 0x2003#16, 0x2004#16, 0x2005#16, 0x3FFE#16, 0x2007#16, 0x3FFF#16].map
      (fun a => a.toNat % 8) = [0, 1, 2, 3, 4, 5, 6, 7, 7] ∧
    0x2000 ≤ (0x2000#16).toNat ∧ (0x3FFF#16).toNat ≤ 0x3FFF ∧
    Ppu.constructed.w = false ∧ ({ Ppu.constructed with w := true } : Ppu).w = true ∧
    (0x1FFF#14).toNat < 0x2000 ∧ 0x2000 ≤ (0x2000#14).toNat ∧ (0x3EFF#14).toNat < 0x3F00 ∧ 0x3F00 ≤ (0x3F00#14).toNat ∧
    State.reset.slot = none ∧ ((withCart 2 0 .m0).slot.map fun sl => sl.cart.chrBanks) = some 0 ∧
    ((withCart 2 1 .m0).slot.map fun sl => sl.cart.chrBanks) = some 1 := by decide

/-- The last address below the palette, and the first in it. -/
theorem witness_VramAddressAndBufferedRead :
    let t := fun hi lo => store 0x2006#16 lo (store 0x2006#16 hi State.reset)
    State.reset.ppu.w = false ∧ (t 0xFE#8 0xFF#8).ppu.vramAddr = 0x3EFF#14 ∧
    (t 0xFE#8 0xFF#8).ppu.vramAddr.toNat < 0x3F00 ∧ 0x3F00 ≤ (t 0xFF#8 0x00#8).ppu.vramAddr.toNat := by
  decide

/-- Both ends of each range. -/
theorem witness_VramAddressMap : (withCart 2 0 .m0).slot.isSome = true ∧
    (0x0000#14).toNat < 0x2000 ∧ (0x1FFF#14).toNat < 0x2000 ∧ 0x2000 ≤ (0x2000#14).toNat ∧ (0x3EFF#14).toNat < 0x3F00 ∧
    0x3F00 ≤ (0x3F00#14).toNat ∧ 0x3F00 ≤ (0x3FFF#14).toNat := by decide

theorem witness_OamDmaCopiesAPage : (0x00#8).toNat < 0x20 ∧ (0x1F#8).toNat < 0x20 := by decide

/-- A position before each event, at each end of a line and of the frame. -/
theorem witness_PpuTickAdvancesTheFrame :
    [(0, 0), (241, 0), (241, 1), (261, 0), (261, 340), (0, 340)].map (fun q =>
      let u := { Ppu.constructed with scanline := q.1, dot := q.2 }
      (u.wf, framePosition u.tick)) =
    [(true, 1), (true, 241 * 341 + 1), (true, 241 * 341 + 2), (true, 261 * 341 + 1), (true, 0), (true, 341)] := by decide

theorem witness_InterruptEntry : State.reset.halted = none ∧ getFlag .interruptDisable State.reset.p = true ∧
    (State.reset.setP 0x20#8).halted = none ∧ getFlag .interruptDisable (State.reset.setP 0x20#8).p = false := by decide

/-- An accepted image, with cells of PRG and of CHR; and one refused for each check. -/
theorem witness_InstallCartridgeChecksTheImage :
    (∃ t, installCartridge smallImage State.reset = .installed t) ∧
    16383 < (smallImage.getD 4 0x00#8).toNat * 16384 ∧ 8191 < (smallImage.getD 5 0x00#8).toNat * 8192 ∧
    ([] : List Byte).take 4 ≠ [0x4E#8, 0x45#8, 0x53#8, 0x1A#8] ∧
    ((image 0x00#8 0x01#8 0x00#8 0x00#8).getD 4 0x00#8).toNat = 0 ∧
    (image 0x01#8 0x00#8 0x00#8 0x00#8).length < 16 + 1 * 16384 + 0 * 8192 ∧
    3 < ((image 0x01#8 0x00#8 0x40#8 0x00#8).getD 7 0x00#8).toNat / 16 * 16 +
      ((image 0x01#8 0x00#8 0x40#8 0x00#8).getD 6 0x00#8).toNat / 16 :=
  ⟨smallImage_installs _, by decide, by decide, by decide⟩

/-- A NOP one dot before vblank starts, with NMIs enabled at the PPU. -/
def atVblank : State := atNop.setPpu { Ppu.constructed with scanline := 241, dot := 0, ctrl := 0x80#8 }

/-- The same NOP with a DMA to account for. -/
def atDma : State := atNop.setPpu { Ppu.constructed with dmaDone := true }

/-- No event; vblank starting on the first tick; a DMA stall. -/
theorem witness_DriverIterationDuties :
    (atNop.wf = true ∧ atNop.halted = none ∧ step atNop = .next afterNop ∧ afterNop.cyc = atNop.cyc + 2) ∧
    (atVblank.wf = true ∧ atVblank.halted = none ∧ step atVblank = .next (afterNop.setPpu atVblank.ppu) ∧
      atVblank.ppu.ctrl.getLsbD 7 = true ∧ (framePosition atVblank.ppu + 1 + 0) % 89342 = 241 * 341 + 1) ∧
    (atDma.wf = true ∧ atDma.halted = none ∧ step atDma = .next (afterNop.setPpu atDma.ppu) ∧ atDma.ppu.dmaDone = true) :=
  ⟨⟨by decide, by decide, rfl, by decide⟩, ⟨by decide, by decide, rfl, by decide, by decide⟩, by decide, by decide, rfl,
    by decide⟩

/-- What a Driver iteration of `atVblank` leaves (R302): the NMI taken, 9 CPU cycles, 27 PPU cycles. -/
def afterVblank : State :=
  { afterNop with
    pc := 0x0000#16, sp := 0xFA#8, cyc := 9, ram := [(0x1FB, 0x24#8), (0x1FC, 0x01#8), (0x1FD, 0x80#8)]
    ppu := { Ppu.constructed with scanline := 241, dot := 27, ctrl := 0x80#8, status := 0x80#8 } }

theorem driverIteration_atVblank : driverIteration atVblank = .next afterVblank := by
  have h : driverIteration atVblank = .next (driverAfter (afterNop.setPpu atVblank.ppu) 2) := rfl
  rw [h, show driverAfter (afterNop.setPpu atVblank.ppu) 2 = afterVblank by decide +kernel]

/-- An iteration without an event, and one in which vblank starts and the NMI is taken. -/
theorem witness_DriverIterationClearsTheSignals :
    (atNop.wf = true ∧ atNop.halted = none ∧ atNop.ppu.nmiRequest = false ∧ driverIteration atNop = .next afterDriver) ∧
    atVblank.wf = true ∧ atVblank.halted = none ∧ atVblank.ppu.nmiRequest = false ∧
    driverIteration atVblank = .next afterVblank :=
  ⟨⟨by decide, by decide, by decide, rfl⟩, by decide, by decide, by decide, driverIteration_atVblank⟩

end Sys2Proof.Machine.Tests
end

/-! Proofs for the family of spec/10_state.md: the invariants of the block, where nothing runs, what a step does to
`CYC`, and the stack helpers. -/

namespace Sys2Proof.Machine

/-! ### The well-formed block -/

/-- Settles O12: well-formedness is closed under every elementary change of an instruction and does not see `CYC`. -/
theorem stepKeepsTheBlockWellFormed : Obligations.StepKeepsTheBlockWellFormed :=
  fun _ _ h e => closed_wf.step (fun _ _ h => h) h e

/-- Settles O13: every memory of the reset state is empty, there is no slot, and the PPU stands at (0, 0). -/
theorem resetIsWellFormed : Obligations.ResetIsWellFormed := by
  unfold Obligations.ResetIsWellFormed
  decide

/-! ### Where nothing runs -/

/-- A halted CPU: the step and the host operations of the CPU change nothing (R23, R296). -/
theorem noEffect_of_halted {s : State} {w : Byte × Addr} (h : s.halted = some w) :
    step s = .next s ∧ driverIteration s = .next s ∧ nmi s = s ∧ irq s = s := by
  refine ⟨?_, ?_, ?_, ?_⟩
  · simp only [step, stepOutcome, h]
  · simp only [driverIteration, h]
  · simp only [nmi, h]
  · simp only [irq, h]

/-- With no cartridge, the cartridge window answers 0 and drops stores (R292; assumption 2). -/
theorem cartWindow_of_no_slot {s : State} (hs : s.slot = none) {a : Addr} (ha : 0x4020 ≤ a.toNat) (v : Byte) :
    load a s = (0x00#8, s) ∧ store a v s = s := by
  have hself : s.setSlot none = s := by rw [← hs, State.setSlot_self]
  constructor
  · rw [load_of_cart (region_cart ha), hs]
    rfl
  · rw [store_of_cart (region_cart ha), hs]
    exact hself

/-- Settles O10: each outcome is read off the branch that the Halted record or the empty slot selects. -/
theorem haltedOrWithoutCartridge : Obligations.HaltedOrWithoutCartridge := by
  unfold Obligations.HaltedOrWithoutCartridge
  refine ⟨fun s w h => ?_, fun s hs => ⟨fun hh => ?_, ?_, fun a v ha => cartWindow_of_no_slot hs ha v⟩⟩
  · obtain ⟨hstep, hdriver, hnmi, hirq⟩ := noEffect_of_halted h
    exact ⟨hstep, hdriver, hnmi, hirq, rfl⟩
  · simp only [step, stepOutcome, hh, hs]
  · simp only [hostReset, hs]

/-! ### The cycle count of a step -/

/-- Every base cost of the opcode table is 2 to 7 (the cost column of R146). -/
theorem opEntry_cycles_bounds {op : Byte} {e : OpEntry} (h : opEntry op = some e) : 2 ≤ e.cycles ∧ e.cycles ≤ 7 := by
  have hall : ∀ e ∈ opcodeTable, 2 ≤ e.cycles ∧ e.cycles ≤ 7 := by decide +kernel
  exact hall e (List.mem_of_find?_eq_some h)

/-- A handler runs with the cycle counter of the step's start. -/
@[simp] theorem handlerState_fetchOpcode_cyc (e : OpEntry) (s : State) :
    (handlerState e (fetchOpcode s).2).cyc = s.cyc := by
  rw [handlerState_state]
  rfl

/-- An instruction leaves the cycle counter and the Halted record as they were (R296, R23). -/
theorem exec_cyc_halted {i : Instr} {s t : State} (h : exec i s = .next t) : t.cyc = s.cyc ∧ t.halted = s.halted :=
  ((closed_halted_cyc s.halted s.cyc).exec i ⟨rfl, rfl⟩ h).symm

/-- Settles O11: no instruction writes `CYC`, so a step adds what `finish` adds, the base cost of its entry. -/
theorem stepAddsTheBaseCost : Obligations.StepAddsTheBaseCost := by
  unfold Obligations.StepAddsTheBaseCost
  intro s t hh hst
  rcases step_next hst with ⟨hsome, -⟩ | ⟨-, -, e, u, he, hu, rfl⟩
  · simp [hh] at hsome
  · have hcyc : u.cyc = s.cyc := by simpa using (exec_cyc_halted hu).1
    exact ⟨e, he, congrArg (· + e.cycles) hcyc, opEntry_cycles_bounds he⟩

/-! ### Properties kept by the host operations -/

/-- A property that, besides the elementary changes of an instruction, survives what the host and the Driver write: the
cycle counter, PPU cycles, and the three PPU signals being cleared (R302). -/
structure HostClosed (P : State → Prop) : Prop extends Closed P where
  setCyc : ∀ s v, P s → P (s.setCyc v)
  ppuTicks : ∀ n s, P s → P (ppuTicks n s)
  clearDma : ∀ s, P s → P (s.setPpu { s.ppu with dmaDone := false })
  clearNmi : ∀ s, P s → P (s.setPpu { s.ppu with nmiRequest := false })
  clearFrame : ∀ s, P s → P (s.setPpu { s.ppu with newFrame := false })

/-- A Driver iteration that answers a next state did nothing on a halted CPU, or finished a step (R302). -/
theorem driverIteration_next {s t : State} (h : driverIteration s = .next t) :
    (s.halted.isSome ∧ t = s) ∨ ∃ u c, step s = .next u ∧ t = driverAfter u c := by
  unfold driverIteration at h
  split at h
  · next hh =>
    cases h
    exact .inl ⟨by simp [hh], rfl⟩
  · cases h
  · next hh hs =>
    split at h
    · next u c hc =>
      cases h
      exact .inr ⟨u, c, by simp only [step, stepOutcome, hh, hs, hc], rfl⟩
    · cases h
    · cases h
    · cases h

section
variable {P : State → Prop} (H : HostClosed P)
include H

/-- A host-closed property is kept by a step. -/
theorem HostClosed.keptByStep {s t : State} (h : P s) (e : step s = .next t) : P t := H.toClosed.step H.setCyc h e

theorem HostClosed.nmi {s : State} (h : P s) : P (nmi s) := by
  unfold Machine.nmi
  split
  · exact h
  · exact H.setCyc _ _ (H.enterTrap _ _ _ h)

theorem HostClosed.irq {s : State} (h : P s) : P (irq s) := by
  unfold Machine.irq
  split
  · exact H.setCyc _ _ (H.enterTrap _ _ _ h)
  · exact h

theorem HostClosed.settleDma {s : State} (h : P s) (c : Nat) : P (settleDma s c).1 := by
  unfold Machine.settleDma
  split
  · exact H.setCyc _ _ (H.clearDma _ h)
  · exact h

theorem HostClosed.settleNmi {s : State} (h : P s) : P (settleNmi s) := by
  unfold Machine.settleNmi
  split
  · exact H.ppuTicks _ _ (H.nmi (H.clearNmi _ h))
  · exact h

theorem HostClosed.driverAfter {s : State} (h : P s) (c : Nat) : P (driverAfter s c) :=
  H.clearFrame _ (H.settleNmi (H.ppuTicks _ _ (H.settleDma h c)))

/-- A host-closed property is kept by a Driver iteration. -/
theorem HostClosed.driverIteration {s t : State} (h : P s) (e : driverIteration s = .next t) : P t := by
  rcases driverIteration_next e with ⟨-, rfl⟩ | ⟨u, c, hstep, rfl⟩
  · exact h
  · exact H.driverAfter (H.keptByStep h hstep) c

end

/-! ### The Unused flag -/

/-- The Unused flag is no business of the cycle counter or the PPU. -/
theorem hostClosed_unused : HostClosed fun s => s.unusedSet = true where
  toClosed := closed_unused
  setCyc _ _ h := h
  ppuTicks _ _ h := h
  clearDma _ h := h
  clearNmi _ h := h
  clearFrame _ h := h

theorem resetBlock_unusedSet (s : State) : (resetBlock s).unusedSet = true := getFlag_resetP .unused

/-- Settles O15: `reset()` sets the bit, and no change of an instruction or of the Driver clears it. -/
theorem unusedFlagStaysSet : Obligations.UnusedFlagStaysSet := by
  unfold Obligations.UnusedFlagStaysSet
  refine ⟨resetBlock_unusedSet, fun s h => ⟨?_, ?_, ?_, ?_⟩⟩
  · exact hostClosed_unused.nmi h
  · exact hostClosed_unused.irq h
  · exact fun t e => hostClosed_unused.keptByStep h e
  · exact fun t e => hostClosed_unused.driverIteration h e

/-! ### The cartridge record -/

/-- The cartridge record is no business of the cycle counter or the PPU. -/
theorem hostClosed_cart (c : Option Cartridge) : HostClosed fun s => s.cart = c where
  toClosed := closed_cart c
  setCyc _ _ h := h
  ppuTicks _ _ h := h
  clearDma _ h := h
  clearNmi _ h := h
  clearFrame _ h := h

theorem resetBlock_cart (s : State) : (resetBlock s).cart = s.cart :=
  congrArg (Option.map Slot.cart) (loadWord_slot Config.vecReset s)

/-- An accepted image becomes the cartridge record, as a whole (R69). -/
theorem installCartridge_cart {img : List Byte} {s t : State} (h : installCartridge img s = .installed t) :
    t.cart = some (cartridgeOf img) := by
  unfold installCartridge at h
  dsimp only at h
  split at h
  · cases h
  · cases h
    rfl
  · cases h

/-- Settles O16: the record is kept by every elementary change, and only `InstallCartridge` writes the slot anew. -/
theorem cartridgeIsNeverMutated : Obligations.CartridgeIsNeverMutated := by
  unfold Obligations.CartridgeIsNeverMutated
  refine ⟨?_, ?_, fun s n => ⟨?_, ?_, ?_, ?_⟩, fun img s t => installCartridge_cart⟩
  · exact fun s t e => (hostClosed_cart s.cart).keptByStep rfl e
  · exact fun s t e => (hostClosed_cart s.cart).driverIteration rfl e
  · exact resetBlock_cart s
  · exact (hostClosed_cart s.cart).nmi rfl
  · exact (hostClosed_cart s.cart).irq rfl
  · rfl

/-! ### The stack helpers -/

/-- A stack cell's address as a sum (R13). -/
theorem stackAddr_eq_add (sp : Byte) : stackAddr sp = 0x0100#16 + sp.setWidth 16 := by
  have h := sp.isLt
  apply BitVec.eq_of_toNat_eq
  rw [stackAddr, wordOf_toNat, BitVec.toNat_add, BitVec.toNat_setWidth]
  change 1 * 256 + sp.toNat = (256 + sp.toNat % 65536) % 65536
  omega

theorem loByte_eq_setWidth (w : Addr) : loByte w = w.setWidth 8 := by
  simp [loByte, BitVec.extractLsb']

theorem hiByte_eq_shift (w : Addr) : hiByte w = (w >>> 8).setWidth 8 := by
  apply BitVec.eq_of_toNat_eq
  simp [hiByte]

/-- A byte popped right after it was pushed comes back; only its cell is left written (R20). -/
theorem pop_push (v : Byte) (s : State) :
    pop (push v s) = (v, s.setRam (s.ram.write (0x100 + s.sp.toNat) v)) := by
  have hsp : s.sp - 1#8 + 1#8 = s.sp := by bv_omega
  rw [pop_eq, push_eq]
  simp only [State.setSp_sp, State.setSp_ram, State.setSp_setSp, State.setRam_ram, hsp, Memory.read_write_same]
  rfl

/-- A word popped right after it was pushed comes back, for every `SP`: the two pushes write different cells (R22). -/
theorem popWord_pushWord (w : Addr) (s : State) :
    (popWord (pushWord w s)).1 = w ∧ (popWord (pushWord w s)).2.sp = s.sp := by
  have hsp : s.sp - 2#8 + 2#8 = s.sp := by bv_omega
  have hsp1 : s.sp - 2#8 + 1#8 = s.sp - 1#8 := by bv_omega
  have hcells : 0x100 + s.sp.toNat ≠ 0x100 + (s.sp - 1#8).toNat := by bv_omega
  rw [popWord_eq, pushWord_eq]
  simp only [State.setSp_sp, State.setSp_ram, State.setRam_ram, hsp, hsp1, Memory.read_write_same,
    Memory.read_write_other _ _ hcells, wordOf_hi_lo, and_self]

/-- Settles O44: the definitions with the stack address as a sum and the bytes as truncations, and the round trips. -/
theorem stackHelpers : Obligations.StackHelpers := by
  unfold Obligations.StackHelpers
  intro v w s
  obtain ⟨hword, hwordSp⟩ := popWord_pushWord w s
  refine ⟨?_, ?_, ?_, rfl, ?_, ?_, hword, hwordSp⟩
  · rw [← stackAddr_eq_add, push, store_sp]
  · rw [← stackAddr_eq_add, pop, State.setSp_sp]
  · rw [← loByte_eq_setWidth, ← hiByte_eq_shift, pushWord]
  · rw [pop_push]
  · rw [pop_push, State.setRam_sp]

end Sys2Proof.Machine


/-! What an instruction can do, by mnemonic: one shape for each shared operation, so that a statement over all
instructions is a case analysis over shapes and not over the 151 rows. -/

namespace Sys2Proof.Machine

/-! ### The shapes -/

/-- The mnemonics that combine `A` with an operand into `A` and the status, with their computation. -/
inductive Accumulates : Mnemonic → (Byte → Byte → Byte → Byte × Byte) → Prop
  | adc : Accumulates .adc adcFlags
  | sbc : Accumulates .sbc sbcFlags
  | and : Accumulates .and andFlags
  | ora : Accumulates .ora oraFlags
  | eor : Accumulates .eor eorFlags
  | lda : Accumulates .lda ldaFlags

/-- The mnemonics that set flags from a register and an operand, with the register and the computation. -/
inductive Tests : Mnemonic → (State → Byte) → (Byte → Byte → Byte → Byte) → Prop
  | bit : Tests .bit State.a bitFlags
  | cmp : Tests .cmp State.a compareFlags
  | cpx : Tests .cpx State.x compareFlags
  | cpy : Tests .cpy State.y compareFlags

/-- The shifts and rotates, with their computation. -/
inductive Shifts : Mnemonic → (Byte → Byte → Byte × Byte) → Prop
  | asl : Shifts .asl aslFlags
  | lsr : Shifts .lsr lsrFlags
  | rol : Shifts .rol rolFlags
  | ror : Shifts .ror rorFlags

/-- The mnemonics that replace their operand and the status, with their computation. -/
inductive Modifies : Mnemonic → (Byte → Byte → Byte × Byte) → Prop
  | shift {m f} (h : Shifts m f) : Modifies m f
  | inc : Modifies .inc incFlags
  | dec : Modifies .dec decFlags

/-- The mnemonics that store a register, with the register. -/
inductive Stores : Mnemonic → (State → Byte) → Prop
  | sta : Stores .sta State.a
  | stx : Stores .stx State.x
  | sty : Stores .sty State.y

/-- The state `t` is what an instruction of mnemonic `m` and form `φ` can leave of `s`, through the operation that its
rule names. -/
inductive Effect (m : Mnemonic) (φ : Form) (s : State) : State → Prop
  | accumulates {f o} (hm : Accumulates m f) (ho : φ.operand = some o) : Effect m φ s (accumulate f o s)
  | tests {r f o} (hm : Tests m r f) (ho : φ.operand = some o) : Effect m φ s (testOperand f (r s) o s)
  | shiftsA {f} (hm : Shifts m f) (hφ : φ = .accumulator) : Effect m φ s (modifyAccumulator f s)
  | modifiesMemory {f ref} (hm : Modifies m f) (hφ : φ = .memory ref) : Effect m φ s (modifyMemory f ref s)
  | stores {r ref} (hm : Stores m r) (hφ : φ = .memory ref) : Effect m φ s (storeOperand ref (r s) s)
  | loadsX {o} (hm : m = .ldx) (ho : φ.operand = some o) : Effect m φ s (loadX o s)
  | loadsY {o} (hm : m = .ldy) (ho : φ.operand = some o) : Effect m φ s (loadY o s)
  | writesA {v} (hm : (m, v) ∈ [(.txa, s.x), (.tya, s.y)]) : Effect m φ s ((s.setA v).setP (setZN v s.p))
  | writesX {v} (hm : (m, v) ∈ [(.tax, s.a), (.tsx, s.sp), (.inx, s.x + 1#8), (.dex, s.x - 1#8)]) :
      Effect m φ s ((s.setX v).setP (setZN v s.p))
  | writesY {v} (hm : (m, v) ∈ [(.tay, s.a), (.iny, s.y + 1#8), (.dey, s.y - 1#8)]) :
      Effect m φ s ((s.setY v).setP (setZN v s.p))
  | txs (hm : m = .txs) : Effect m φ s (s.setSp s.x)
  | branches {c d} (hc : branchCondition m s.p = some c) (hφ : φ = .relative d) : Effect m φ s (branch c d s)
  | jumps {w} (hm : m = .jmp) (hφ : φ = .memory (.absolute w)) : Effect m φ s (s.setPc w)
  | jumpsIndirect {w} (hm : m = .jmp) (hφ : φ = .indirect w) :
      Effect m φ s ((indirectTarget w s).2.setPc (indirectTarget w s).1)
  | jsr {w} (hm : m = .jsr) (hφ : φ = .memory (.absolute w)) :
      Effect m φ s ((pushWord (s.pc + 1#16) s).setPc w)
  | rts (hm : m = .rts) : Effect m φ s ((popWord s).2.setPc ((popWord s).1 + 1#16))
  | brk (hm : m = .brk) : Effect m φ s (enterTrap (s.pc + 1#16) (s.p ||| 0x10#8) Config.vecIrq s)
  | rti (hm : m = .rti) : Effect m φ s (returnFromTrap s)
  | pushes {v} (hm : (m, v) ∈ [(.pha, s.a), (.php, s.p ||| 0x30#8)]) : Effect m φ s (push v s)
  | pla (hm : m = .pla) : Effect m φ s (((pop s).2.setA (pop s).1).setP (setZN (pop s).1 (pop s).2.p))
  | plp (hm : m = .plp) : Effect m φ s ((pop s).2.setP ((pop s).1 ||| 0x20#8))
  | clears {f} (hm : (m, f) ∈ [(.clc, Flag.carry), (.cld, .decimal), (.cli, .interruptDisable), (.clv, .overflow)]) :
      Effect m φ s (s.setP (clearFlag f s.p))
  | sets {f} (hm : (m, f) ∈ [(.sec, Flag.carry), (.sed, .decimal), (.sei, .interruptDisable)]) :
      Effect m φ s (s.setP (setFlag f s.p))
  | nop (hm : m = .nop) : Effect m φ s s

/-- Every instruction has the effect of its mnemonic and form, row by row of the opcode table. -/
theorem exec_effect {i : Instr} {s t : State} (h : exec i s = .next t) : Effect i.mnemonic i.form s t := by
  cases i with
  | adcImm _ | adcZp _ | adcZpX _ | adcAbs _ | adcAbsX _ | adcAbsY _ | adcIndX _ | adcIndY _ =>
    exact of_next (.accumulates .adc rfl) h
  | sbcImm _ | sbcZp _ | sbcZpX _ | sbcAbs _ | sbcAbsX _ | sbcAbsY _ | sbcIndX _ | sbcIndY _ =>
    exact of_next (.accumulates .sbc rfl) h
  | andImm _ | andZp _ | andZpX _ | andAbs _ | andAbsX _ | andAbsY _ | andIndX _ | andIndY _ =>
    exact of_next (.accumulates .and rfl) h
  | oraImm _ | oraZp _ | oraZpX _ | oraAbs _ | oraAbsX _ | oraAbsY _ | oraIndX _ | oraIndY _ =>
    exact of_next (.accumulates .ora rfl) h
  | eorImm _ | eorZp _ | eorZpX _ | eorAbs _ | eorAbsX _ | eorAbsY _ | eorIndX _ | eorIndY _ =>
    exact of_next (.accumulates .eor rfl) h
  | ldaImm _ | ldaZp _ | ldaZpX _ | ldaAbs _ | ldaAbsX _ | ldaAbsY _ | ldaIndX _ | ldaIndY _ =>
    exact of_next (.accumulates .lda rfl) h
  | bitZp _ | bitAbs _ => exact of_next (.tests .bit rfl) h
  | cmpImm _ | cmpZp _ | cmpZpX _ | cmpAbs _ | cmpAbsX _ | cmpAbsY _ | cmpIndX _ | cmpIndY _ =>
    exact of_next (.tests .cmp rfl) h
  | cpxImm _ | cpxZp _ | cpxAbs _ => exact of_next (.tests .cpx rfl) h
  | cpyImm _ | cpyZp _ | cpyAbs _ => exact of_next (.tests .cpy rfl) h
  | aslAcc => exact of_next (.shiftsA .asl rfl) h
  | lsrAcc => exact of_next (.shiftsA .lsr rfl) h
  | rolAcc => exact of_next (.shiftsA .rol rfl) h
  | rorAcc => exact of_next (.shiftsA .ror rfl) h
  | aslZp _ | aslZpX _ | aslAbs _ | aslAbsX _ => exact of_next (.modifiesMemory (.shift .asl) rfl) h
  | lsrZp _ | lsrZpX _ | lsrAbs _ | lsrAbsX _ => exact of_next (.modifiesMemory (.shift .lsr) rfl) h
  | rolZp _ | rolZpX _ | rolAbs _ | rolAbsX _ => exact of_next (.modifiesMemory (.shift .rol) rfl) h
  | rorZp _ | rorZpX _ | rorAbs _ | rorAbsX _ => exact of_next (.modifiesMemory (.shift .ror) rfl) h
  | incZp _ | incZpX _ | incAbs _ | incAbsX _ => exact of_next (.modifiesMemory .inc rfl) h
  | decZp _ | decZpX _ | decAbs _ | decAbsX _ => exact of_next (.modifiesMemory .dec rfl) h
  | ldxImm _ | ldxZp _ | ldxZpY _ | ldxAbs _ | ldxAbsY _ => exact of_next (.loadsX rfl rfl) h
  | ldyImm _ | ldyZp _ | ldyZpX _ | ldyAbs _ | ldyAbsX _ => exact of_next (.loadsY rfl rfl) h
  | staZp _ | staZpX _ | staAbs _ | staAbsX _ | staAbsY _ | staIndX _ | staIndY _ => exact of_next (.stores .sta rfl) h
  | stxZp _ | stxZpY _ | stxAbs _ => exact of_next (.stores .stx rfl) h
  | styZp _ | styZpX _ | styAbs _ => exact of_next (.stores .sty rfl) h
  | txa | tya => exact of_next (.writesA (by simp [Instr.mnemonic])) h
  | tax | tsx | inx | dex => exact of_next (.writesX (by simp [Instr.mnemonic])) h
  | tay | iny | dey => exact of_next (.writesY (by simp [Instr.mnemonic])) h
  | txs => exact of_next (.txs rfl) h
  | bccRel _ | bcsRel _ | beqRel _ | bneRel _ | bmiRel _ | bplRel _ | bvcRel _ | bvsRel _ =>
    exact of_next (.branches rfl rfl) h
  | jmpAbs _ => exact of_next (.jumps rfl rfl) h
  | jmpInd _ => exact of_next (.jumpsIndirect rfl rfl) h
  | jsrAbs _ => exact of_next (.jsr rfl rfl) h
  | rts => exact of_next (.rts rfl) h
  | brk => exact of_next (.brk rfl) h
  | rti => exact of_next (.rti rfl) h
  | pha | php => exact of_next (.pushes (by simp [Instr.mnemonic])) h
  | pla => exact of_next (.pla rfl) h
  | plp => exact of_next (.plp rfl) h
  | clc | cld | cli | clv => exact of_next (.clears (by decide)) h
  | sec | sed | sei => exact of_next (.sets (by decide)) h
  | nop => exact of_next (.nop rfl) h

end Sys2Proof.Machine


/-! Frames over all instructions: which registers and which flags an instruction can change, read off its effect. -/

namespace Sys2Proof.Machine

/-! ### Registers -/

theorem Accumulates.mem {m : Mnemonic} {f : Byte → Byte → Byte → Byte × Byte} (h : Accumulates m f) :
    m ∈ [.adc, .sbc, .and, .ora, .eor, .lda] := by
  cases h <;> decide

theorem Shifts.mem {m : Mnemonic} {f : Byte → Byte → Byte × Byte} (h : Shifts m f) : m ∈ [.asl, .lsr, .rol, .ror] := by
  cases h <;> decide

/-- The mnemonics with a branch condition are the branches. -/
theorem branchCondition_mem {m : Mnemonic} {p : Byte} {c : Bool} (h : branchCondition m p = some c) :
    m ∈ [.bcc, .bcs, .beq, .bne, .bmi, .bpl, .bvc, .bvs] := by
  revert h
  cases m <;> simp [branchCondition]

/-- Settles O37: each shape of effect, in closed form, writes the registers of its mnemonics and no other. -/
theorem registerWriters : Obligations.RegisterWriters := by
  unfold Obligations.RegisterWriters
  intro i s t h
  cases exec_effect h with
  | accumulates hm _ =>
    have hmem := hm.mem
    simp [accumulate_eq] at hmem ⊢
    tauto
  | tests _ _ => simp [testOperand_eq]
  | shiftsA hm hφ =>
    have hmem := hm.mem
    simp [modifyAccumulator, hφ] at hmem ⊢
    tauto
  | modifiesMemory _ _ => simp [modifyMemory_eq]
  | stores _ _ => simp [storeOperand_eq]
  | loadsX hm _ => simp [loadX_eq, hm]
  | loadsY hm _ => simp [loadY_eq, hm]
  | writesA hm =>
    simp at hm ⊢
    tauto
  | writesX hm =>
    simp at hm ⊢
    tauto
  | writesY hm =>
    simp at hm ⊢
    tauto
  | txs hm => simp [hm]
  | branches hc _ =>
    have hmem := branchCondition_mem hc
    simp [branch] at hmem ⊢
    tauto
  | jumps hm _ => simp [hm]
  | jumpsIndirect hm _ => simp [indirectTarget, hm]
  | jsr hm _ => simp [pushWord_eq, hm]
  | rts hm => simp [popWord_eq, hm]
  | brk hm => simp [enterTrap_eq, hm]
  | rti hm => simp [returnFromTrap, pop_eq, popWord_eq, hm]
  | pushes hm =>
    simp [push_eq] at hm ⊢
    tauto
  | pla hm => simp [pop_eq, hm]
  | plp hm => simp [pop_eq, hm]
  | clears _ => simp
  | sets _ => simp
  | nop _ => simp

/-! ### Flags -/

/-- The flags a mnemonic writes (the "set and cleared by" column of R14). -/
def writtenFlags : Mnemonic → List Flag
  | .adc | .sbc => [.carry, .zero, .overflow, .negative]
  | .asl | .lsr | .rol | .ror | .cmp | .cpx | .cpy => [.carry, .zero, .negative]
  | .bit => [.zero, .overflow, .negative]
  | .and | .ora | .eor | .lda | .ldx | .ldy | .inc | .dec | .inx | .iny | .dex | .dey | .tax | .tay | .tsx | .txa | .tya
  | .pla => [.zero, .negative]
  | .clc | .sec => [.carry]
  | .cld | .sed => [.decimal]
  | .cli | .sei | .brk => [.interruptDisable]
  | .clv => [.overflow]
  | .plp | .rti => [.carry, .zero, .interruptDisable, .decimal, .breakBit, .unused, .overflow, .negative]
  | .sta | .stx | .sty | .bcc | .bcs | .beq | .bne | .bmi | .bpl | .bvc | .bvs | .jmp | .jsr | .rts | .pha | .php | .txs
  | .nop => []

/-- PLP and RTI write every flag. -/
theorem mem_writtenFlags_of_pulls {m : Mnemonic} (hm : m = .plp ∨ m = .rti) (g : Flag) : g ∈ writtenFlags m := by
  rcases hm with rfl | rfl <;> cases g <;> decide

/-- The instructions that write one flag by name: the flag operations and BRK. -/
def flagOperations : List (Mnemonic × Flag) :=
  [(.clc, .carry), (.sec, .carry), (.cld, .decimal), (.sed, .decimal), (.cli, .interruptDisable),
    (.sei, .interruptDisable), (.brk, .interruptDisable), (.clv, .overflow)]

theorem writtenFlags_of_flagOperation {m : Mnemonic} {f : Flag} (h : (m, f) ∈ flagOperations) :
    writtenFlags m = [f] := by
  have hall : ∀ q ∈ flagOperations, writtenFlags q.1 = [q.2] := by decide
  exact hall _ h

section
variable {m : Mnemonic} {g : Flag} (hg : g ∉ writtenFlags m)
include hg

/-- `SetZN` keeps a flag that is not written by a mnemonic that writes Z and N. -/
theorem getFlag_setZN_of_not_mem (hm : m ∈ writesZN) (v p : Byte) : getFlag g (setZN v p) = getFlag g p := by
  have hall : ∀ m ∈ writesZN, .zero ∈ writtenFlags m ∧ .negative ∈ writtenFlags m := by decide
  obtain ⟨hz, hn⟩ := hall m hm
  have hgz : g ≠ .zero := fun h => hg (h ▸ hz)
  have hgn : g ≠ .negative := fun h => hg (h ▸ hn)
  rw [getFlag_setZN, if_neg hgn, if_neg hgz]

/-- The same with the carry written first, as the shifts and the compares do. -/
theorem getFlag_setCZN_of_not_mem (hm : m ∈ writesZN) (hc : .carry ∈ writtenFlags m) (c : Bool) (v p : Byte) :
    getFlag g (setZN v (putFlag .carry c p)) = getFlag g p := by
  have hgc : g ≠ .carry := fun h => hg (h ▸ hc)
  rw [getFlag_setZN_of_not_mem hg hm, getFlag_putFlag, if_neg hgc]

theorem Accumulates.getFlag_eq {f : Byte → Byte → Byte → Byte × Byte} (h : Accumulates m f) (p a v : Byte) :
    getFlag g (f p a v).2 = getFlag g p := by
  cases h with
  | adc | sbc =>
    simp [writtenFlags] at hg
    simp [adcFlags, sbcFlags, getFlag_setZN, getFlag_putFlag, hg]
  | and | ora | eor | lda => exact getFlag_setZN_of_not_mem hg (by decide) _ _

theorem Tests.getFlag_eq {r : State → Byte} {f : Byte → Byte → Byte → Byte} (h : Tests m r f) (p a v : Byte) :
    getFlag g (f p a v) = getFlag g p := by
  cases h with
  | bit =>
    simp [writtenFlags] at hg
    simp [bitFlags, getFlag_putFlag, hg]
  | cmp | cpx | cpy => exact getFlag_setCZN_of_not_mem hg (by decide) (by decide) _ _ _

theorem Shifts.getFlag_eq {f : Byte → Byte → Byte × Byte} (h : Shifts m f) (p v : Byte) :
    getFlag g (f p v).2 = getFlag g p := by
  cases h with
  | asl | lsr | rol | ror => exact getFlag_setCZN_of_not_mem hg (by decide) (by decide) _ _ _

theorem Modifies.getFlag_eq {f : Byte → Byte → Byte × Byte} (h : Modifies m f) (p v : Byte) :
    getFlag g (f p v).2 = getFlag g p := by
  cases h with
  | shift h => exact h.getFlag_eq hg p v
  | inc | dec => exact getFlag_setZN_of_not_mem hg (by decide) _ _

/-- An effect keeps the flags its mnemonic does not write. -/
theorem Effect.getFlag_eq {φ : Form} {s t : State} (h : Effect m φ s t) : getFlag g t.p = getFlag g s.p := by
  cases h with
  | accumulates hm _ =>
    rw [accumulate_eq]
    exact hm.getFlag_eq hg _ _ _
  | tests hm _ =>
    rw [testOperand_eq]
    exact hm.getFlag_eq hg _ _ _
  | shiftsA hm _ => exact hm.getFlag_eq hg _ _
  | modifiesMemory hm _ =>
    rw [modifyMemory_eq]
    exact hm.getFlag_eq hg _ _
  | stores _ _ => simp [storeOperand_eq]
  | loadsX hm _ =>
    rw [loadX_eq]
    exact getFlag_setZN_of_not_mem hg (by rw [hm]; decide) _ _
  | loadsY hm _ =>
    rw [loadY_eq]
    exact getFlag_setZN_of_not_mem hg (by rw [hm]; decide) _ _
  | writesA hm =>
    have hsub : [Mnemonic.txa, .tya] ⊆ writesZN := by decide
    exact getFlag_setZN_of_not_mem hg (hsub (List.mem_map_of_mem (f := Prod.fst) hm)) _ _
  | writesX hm =>
    have hsub : [Mnemonic.tax, .tsx, .inx, .dex] ⊆ writesZN := by decide
    exact getFlag_setZN_of_not_mem hg (hsub (List.mem_map_of_mem (f := Prod.fst) hm)) _ _
  | writesY hm =>
    have hsub : [Mnemonic.tay, .iny, .dey] ⊆ writesZN := by decide
    exact getFlag_setZN_of_not_mem hg (hsub (List.mem_map_of_mem (f := Prod.fst) hm)) _ _
  | txs _ | branches _ _ | jumps _ _ | nop _ => rfl
  | jumpsIndirect _ _ => simp [indirectTarget]
  | jsr _ _ => simp [pushWord_eq]
  | rts _ => simp [popWord_eq]
  | brk hm =>
    rw [hm, writtenFlags_of_flagOperation (f := .interruptDisable) (by decide), List.mem_singleton] at hg
    simp [enterTrap_eq, getFlag_setFlag, hg]
  | rti hm => exact absurd (mem_writtenFlags_of_pulls (.inr hm) g) hg
  | pushes _ => simp [push_eq]
  | pla hm =>
    rw [pop_eq]
    exact getFlag_setZN_of_not_mem hg (by rw [hm]; decide) _ _
  | plp hm => exact absurd (mem_writtenFlags_of_pulls (.inl hm) g) hg
  | clears hm =>
    have hsub : [(.clc, .carry), (.cld, .decimal), (.cli, .interruptDisable), (.clv, .overflow)] ⊆ flagOperations := by
      decide
    rw [writtenFlags_of_flagOperation (hsub hm), List.mem_singleton] at hg
    simp [getFlag_clearFlag, hg]
  | sets hm =>
    have hsub : [(.sec, .carry), (.sed, .decimal), (.sei, .interruptDisable)] ⊆ flagOperations := by decide
    rw [writtenFlags_of_flagOperation (hsub hm), List.mem_singleton] at hg
    simp [getFlag_setFlag, hg]

end

/-- A flag that an instruction changed is one that its mnemonic writes. -/
theorem mem_writtenFlags_of_ne {i : Instr} {s t : State} (h : exec i s = .next t) {g : Flag}
    (hne : getFlag g t.p ≠ getFlag g s.p) : g ∈ writtenFlags i.mnemonic := by
  by_contra hg
  exact hne ((exec_effect h).getFlag_eq hg)

/-- A flag is changed only by the mnemonics of a list that holds all its writers. -/
theorem mem_of_flag_ne {i : Instr} {s t : State} (h : exec i s = .next t) {g : Flag} {l : List Mnemonic}
    (hl : ∀ m, g ∈ writtenFlags m → m ∈ l) (hne : getFlag g t.p ≠ getFlag g s.p) : i.mnemonic ∈ l :=
  hl _ (mem_writtenFlags_of_ne h hne)

/-- An instruction keeps the whole status if its mnemonic writes no flag. -/
theorem p_eq_of_writtenFlags_nil {i : Instr} {s t : State} (h : exec i s = .next t)
    (hm : writtenFlags i.mnemonic = []) : t.p = s.p :=
  eq_of_getFlag_eq fun f => (exec_effect h).getFlag_eq (by simp [hm])

/-- Settles O38: by the table of written flags, each flag's column read over the 56 mnemonics. -/
theorem flagWriters : Obligations.FlagWriters := by
  unfold Obligations.FlagWriters
  intro i s t h
  refine ⟨mem_of_flag_ne h ?_, mem_of_flag_ne h ?_, mem_of_flag_ne h ?_, mem_of_flag_ne h ?_, mem_of_flag_ne h ?_,
    mem_of_flag_ne h ?_, mem_of_flag_ne h ?_, mem_of_flag_ne h ?_, fun f g hf hg => ?oneFlag, fun hm => ?noFlag⟩
  case oneFlag =>
    refine (exec_effect h).getFlag_eq ?_
    rw [writtenFlags_of_flagOperation hf, List.mem_singleton]
    exact hg
  case noFlag =>
    refine p_eq_of_writtenFlags_nil h ?_
    revert hm
    generalize i.mnemonic = m
    cases m <;> decide
  all_goals
    intro m
    cases m <;> decide

end Sys2Proof.Machine


/-! Proofs for the family of spec/20_memory.md: the address decoder by the ranges of its windows, work RAM, and the
offsets of the mapper translations. -/

namespace Sys2Proof.Machine

/-! ### The address decoder -/

/-- The addresses of a region (R40, R43 to R47). -/
def Region.Covers (a : Addr) : Region → Prop
  | .ram k => a.toNat ≤ 0x1FFF ∧ k = a.toNat % 2048
  | .ppu i => 0x2000 ≤ a.toNat ∧ a.toNat ≤ 0x3FFF ∧ i.toNat = a.toNat % 8
  | .stub => 0x4000 ≤ a.toNat ∧ a.toNat ≤ 0x401F ∧ a ≠ 0x4014#16
  | .dma => a = 0x4014#16
  | .cart => 0x4020 ≤ a.toNat

/-- A PPU register's index is the low three address bits (R44). -/
theorem toNat_extractLsb'_three (a : Addr) : (a.extractLsb' 0 3).toNat = a.toNat % 8 := by
  rw [BitVec.extractLsb'_toNat, Nat.shiftRight_zero]

/-- An address from 0x2000 to 0x3FFF is a PPU register (R44). -/
theorem region_ppu {a : Addr} (hlo : 0x2000 ≤ a.toNat) (hhi : a.toNat ≤ 0x3FFF) :
    region a = .ppu (a.extractLsb' 0 3) := by
  have hram : ¬ a.toNat ≤ 0x1FFF := by omega
  simp only [region, hram, hhi, if_false, if_true]

/-- The decoder by the ranges of its windows. -/
theorem region_covers (a : Addr) : (region a).Covers a := by
  by_cases hram : a.toNat ≤ 0x1FFF
  · rw [region_ram hram]
    exact ⟨hram, rfl⟩
  by_cases hppu : a.toNat ≤ 0x3FFF
  · have hlo : 0x2000 ≤ a.toNat := by omega
    rw [region_ppu hlo hppu]
    exact ⟨hlo, hppu, toNat_extractLsb'_three a⟩
  by_cases hdma : a = 0x4014#16
  · rw [hdma]
    rfl
  by_cases hstub : a.toNat ≤ 0x401F
  · simp only [region, hram, hppu, hdma, hstub, if_false, if_true]
    exact ⟨by omega, hstub, hdma⟩
  · rw [region_cart (by omega)]
    exact Nat.lt_of_not_le hstub

/-! ### Work RAM -/

/-- Settles O42: both accesses go to the cell of the low eleven address bits. -/
theorem ramIsMirrored : Obligations.RamIsMirrored := by
  unfold Obligations.RamIsMirrored
  intro a b v s ha hb
  have hload (t : State) : load b t = (t.ram.read (b.toNat % 2048), t) := load_of_ram (region_ram hb) t
  have hstore : store a v s = s.setRam (s.ram.write (a.toNat % 2048) v) := store_of_ram (region_ram ha) v s
  refine ⟨hload s, ?_, ?_⟩
  · simp only [hload, hstore, State.setRam_ram, Memory.read_write, eq_comm (a := b.toNat % 2048)]
  · rw [hstore, State.setRam_ram]

/-! ### Mapper offsets -/

/-- A well-formed slot has a PRG bank (R67). -/
theorem Slot.one_le_prgBanks_of_wf {sl : Slot} (h : sl.wf = true) : 1 ≤ sl.cart.prgBanks := by
  simp only [Slot.wf, Bool.and_eq_true, decide_eq_true_eq] at h
  tauto

/-- The address within a 16 KB bank. -/
theorem toNat_and_3FFF_lt (a : Addr) : (a &&& 0x3FFF#16).toNat < 0x4000 :=
  Nat.lt_succ_of_le (toNat_and_le a 0x3FFF#16)

/-- There is always CHR data: at least one 8 KB bank, of ROM or of RAM (R73). -/
theorem Cartridge.le_chrSize (c : Cartridge) : 0x2000 ≤ c.chrSize := by
  unfold Cartridge.chrSize Config.chrBankSize
  split <;> omega

/-- An offset into a bank that exists is an offset into PRG. -/
theorem Cartridge.bank_offset_lt (c : Cartridge) {bank o : Nat} (hb : bank < c.prgBanks) (ho : o < 0x4000) :
    bank * 0x4000 + o < c.prgSize := by
  unfold Cartridge.prgSize Config.prgBankSize
  omega

section
variable {c : Cartridge} (hc : 1 ≤ c.prgBanks)
include hc

theorem Cartridge.prgSize_pos : 0 < c.prgSize := by
  unfold Cartridge.prgSize Config.prgBankSize
  omega

theorem prgIndexFixed_lt (a : Addr) : prgIndexFixed c a < c.prgSize := by
  unfold prgIndexFixed
  split
  · simpa using c.bank_offset_lt hc (toNat_and_3FFF_lt (a - 0x8000#16))
  · exact Nat.mod_lt _ (c.prgSize_pos hc)

theorem prgIndexM1_lt (r : M1Regs) (a : Addr) : prgIndexM1 c r a < c.prgSize := by
  have hpos := c.prgSize_pos hc
  have ho := toNat_and_3FFF_lt a
  unfold prgIndexM1
  dsimp only
  split
  · split <;> exact Nat.mod_lt _ hpos
  · split <;> exact Nat.mod_lt _ hpos
  · split
    · simpa using c.bank_offset_lt hc ho
    · exact Nat.mod_lt _ hpos
  · split
    · exact Nat.mod_lt _ hpos
    · exact c.bank_offset_lt (by omega) ho

theorem prgIndexM2_lt (bank : Byte) (a : Addr) : prgIndexM2 c bank a < c.prgSize := by
  have ho := toNat_and_3FFF_lt a
  unfold prgIndexM2
  dsimp only
  split
  · exact c.bank_offset_lt (Nat.mod_lt _ hc) ho
  · exact c.bank_offset_lt (by omega) ho

end

theorem Slot.prgIndex_lt {sl : Slot} (hc : 1 ≤ sl.cart.prgBanks) (a : Addr) : sl.prgIndex a < sl.cart.prgSize := by
  unfold Slot.prgIndex
  split
  · exact prgIndexFixed_lt hc a
  · exact prgIndexM1_lt hc _ a
  · exact prgIndexM2_lt hc _ a
  · exact prgIndexFixed_lt hc a

theorem Slot.chrIndex_lt_chrSize (sl : Slot) {n : Nat} (hn : n < 0x2000) : sl.chrIndex n < sl.cart.chrSize := by
  have hsize := sl.cart.le_chrSize
  have hpos : 0 < sl.cart.chrSize := by omega
  unfold Slot.chrIndex
  split
  · omega
  · split_ifs <;> exact Nat.mod_lt _ hpos
  · omega
  · exact Nat.mod_lt _ hpos

/-- Settles O49: an offset is reduced modulo the data size, or it lies in a bank that exists. -/
theorem mapperOffsetsAreInRange : Obligations.MapperOffsetsAreInRange :=
  fun sl h => ⟨fun a _ => Slot.prgIndex_lt (Slot.one_le_prgBanks_of_wf h) a, fun _ hn => sl.chrIndex_lt_chrSize hn⟩

end Sys2Proof.Machine


/-! Proofs for the family of spec/20_memory.md: what a load answers and what a store writes in the PPU window, and the
windows without cells of their own. -/

namespace Sys2Proof.Machine

/-! ### Loads of PPU registers and of the windows without cells -/

section
variable {i : BitVec 3} (slot : Option Slot) (u : Ppu)

/-- The write-only registers answer the placeholder (R120). -/
theorem ppuRegRead_of_stub (hi : i.toNat ∈ [0, 1, 3, 5, 6]) : ppuRegRead i slot u = (Config.stubRead, u) := by
  simp only [List.mem_cons, List.not_mem_nil, or_false] at hi
  rcases hi with hi | hi | hi | hi | hi <;> simp [ppuRegRead, hi]

theorem ppuRegRead_of_status (hi : i.toNat = 2) : ppuRegRead i slot u = u.readStatus := by
  simp [ppuRegRead, hi]

theorem ppuRegRead_of_oam (hi : i.toNat = 4) : ppuRegRead i slot u = (u.oam.read u.oamAddr.toNat, u) := by
  simp [ppuRegRead, hi]

theorem ppuRegRead_of_data (hi : i.toNat = 7) : ppuRegRead i slot u = u.readData slot := by
  simp [ppuRegRead, hi]

/-- Only the status and the data register change the PPU interface when read (R49). -/
theorem ppuRegRead_snd_eq (h2 : i.toNat ≠ 2) (h7 : i.toNat ≠ 7) : (ppuRegRead i slot u).2 = u := by
  by_cases h4 : i.toNat = 4
  · rw [ppuRegRead_of_oam slot u h4]
  · have hlt := i.isLt
    have hi : i.toNat ∈ [0, 1, 3, 5, 6] := by
      simp only [List.mem_cons, List.not_mem_nil, or_false]
      omega
    rw [ppuRegRead_of_stub slot u hi]

end

/-- A load that changes the state is one of PPU register 2 or 7 (R49). -/
theorem of_load_snd_ne {a : Addr} {s : State} (h : (load a s).2 ≠ s) :
    0x2000 ≤ a.toNat ∧ a.toNat ≤ 0x3FFF ∧ (a.toNat % 8 = 2 ∨ a.toNat % 8 = 7) := by
  have hc := region_covers a
  cases hr : region a with
  | ppu i =>
    rw [hr] at hc
    obtain ⟨hlo, hhi, hi⟩ := hc
    rw [load_of_ppu hr] at h
    refine ⟨hlo, hhi, ?_⟩
    by_contra hne
    rw [← hi, not_or] at hne
    rw [ppuRegRead_snd_eq _ _ hne.1 hne.2] at h
    exact h rfl
  | _ =>
    rw [load_eq_peek (by simp [hr])] at h
    exact absurd rfl h

/-- Below 0x8000 the cartridge window answers the placeholder, with or without a cartridge (R72). -/
theorem cartLoad_of_lt {a : Addr} (h : a.toNat < 0x8000) (slot : Option Slot) : cartLoad slot a = Config.stubRead := by
  cases slot with
  | none => rfl
  | some sl => exact if_pos h

/-- Below 0x8000 a store in the cartridge window changes nothing (R72). -/
theorem cartStore_of_lt {a : Addr} (h : a.toNat < 0x8000) (slot : Option Slot) (v : Byte) :
    cartStore slot a v = slot := by
  cases slot with
  | none => rfl
  | some sl => exact congrArg some (if_pos h)

/-- A load from 0x4000 to 0x7FFF answers the placeholder (R45, R46, R72). -/
theorem load_of_openBus {a : Addr} (hlo : 0x4000 ≤ a.toNat) (hhi : a.toNat < 0x8000) (s : State) :
    load a s = (Config.stubRead, s) := by
  have hc := region_covers a
  unfold load
  generalize region a = r at hc
  cases r with
  | ram k => exact absurd hc.1 (by omega)
  | ppu i => exact absurd hc.2.1 (by omega)
  | stub => rfl
  | dma => rfl
  | cart => simp only [cartLoad_of_lt hhi]

/-- A store from 0x4000 to 0x7FFF changes nothing, unless it starts the DMA (R45, R46, R72). -/
theorem store_of_openBus {a : Addr} (hlo : 0x4000 ≤ a.toNat) (hhi : a.toNat < 0x8000) (hne : a ≠ 0x4014#16) (v : Byte)
    (s : State) : store a v s = s := by
  have hc := region_covers a
  unfold store
  generalize region a = r at hc
  cases r with
  | ram k => exact absurd hc.1 (by omega)
  | ppu i => exact absurd hc.2.1 (by omega)
  | stub => rfl
  | dma => exact absurd hc hne
  | cart => simp only [cartStore_of_lt hhi, State.setSlot_self]

/-- Settles O43: the PPU window register by register, and the open bus from 0x4000 to 0x7FFF. -/
theorem busWindows : Obligations.BusWindows := by
  unfold Obligations.BusWindows
  refine fun a v s => ⟨of_load_snd_ne, fun hlo hhi => ?_, fun sl _ hlo hhi => ?_⟩
  · have hi := toNat_extractLsb'_three a
    rw [load_of_ppu (region_ppu hlo hhi), ← hi]
    refine ⟨fun h => ?stub, fun h => ?status, fun h => ?oam, fun h => ?data⟩
    case stub =>
      rw [ppuRegRead_of_stub _ _ h]
      rfl
    case status =>
      rw [ppuRegRead_of_status _ _ h]
      rfl
    case oam =>
      rw [ppuRegRead_of_oam _ _ h]
      rfl
    case data =>
      rw [ppuRegRead_of_data _ _ h]
      constructor <;> intro hva
      · simp only [Ppu.readData, hva, if_true]
        rfl
      · simp only [Ppu.readData, Nat.not_lt.2 hva, if_false]
        rfl
  · refine ⟨load_of_openBus hlo hhi s, fun hne => store_of_openBus hlo hhi hne v s, fun he => ?_⟩
    rw [he]
    rfl

/-! ### Stores to PPU registers -/

theorem Memory.puts_write (m : Memory) (k : Nat) (v : Byte) : Puts m (m.write k v) k v :=
  ⟨m.read_write_same k v, fun _ hj => m.read_write_other v hj⟩

/-- The VRAM address advances modulo 0x4000 (R114). -/
theorem Ppu.toNat_add_inc (u : Ppu) :
    (u.vramAddr + u.inc).toNat = (u.vramAddr.toNat + (if u.ctrl.getLsbD 2 then 32 else 1)) % 0x4000 := by
  rw [BitVec.toNat_add, Ppu.inc]
  split <;> rfl

theorem toNat_append_byte {n : Nat} (hi : BitVec n) (lo : Byte) : (hi ++ lo).toNat = hi.toNat * 256 + lo.toNat := by
  rw [BitVec.toNat_append, ← Nat.shiftLeft_add_eq_or_of_lt lo.isLt, Nat.shiftLeft_eq]

/-- An address write replaces one byte of the address, of the high one six bits, and keeps the other (R111). -/
theorem Ppu.writeAddr_eq (u : Ppu) (v : Byte) :
    ∃ na, u.writeAddr v = { u with vramAddr := na, w := !u.w } ∧
      na.toNat = if u.w then u.vramAddr.toNat / 256 * 256 + v.toNat
        else v.toNat % 64 * 256 + u.vramAddr.toNat % 256 := by
  have hva := u.vramAddr.isLt
  cases hw : u.w
  · refine ⟨v.extractLsb' 0 6 ++ u.vramAddr.extractLsb' 0 8, by simp [Ppu.writeAddr, hw], ?_⟩
    simp [toNat_append_byte]
  · refine ⟨u.vramAddr.extractLsb' 8 6 ++ v, by simp [Ppu.writeAddr, hw], ?_⟩
    simp [toNat_append_byte, Nat.shiftRight_eq_div_pow]
    omega

/-! The three ranges of VRAM, by the address (R116). -/

theorem vramRange_of_lt {a : VAddr} (h : a.toNat < 0x2000) : vramRange a = .pattern := if_pos h

theorem vramRange_of_nametable {a : VAddr} (hlo : 0x2000 ≤ a.toNat) (hhi : a.toNat < 0x3F00) :
    vramRange a = .nametable := by
  simp [vramRange, hlo, hhi]

theorem vramRange_of_le {a : VAddr} (h : 0x3F00 ≤ a.toNat) : vramRange a = .palette := by
  have h2 : ¬ a.toNat < 0x2000 := by omega
  simp [vramRange, h2, h]

section
variable (slot : Option Slot) (u : Ppu) {a : VAddr} (v : Byte)

theorem vramStore_of_pattern (h : a.toNat < 0x2000) : vramStore slot u a v = (patternStore slot a v, u) := by
  simp [vramStore, vramRange_of_lt h]

theorem vramStore_of_nametable (hlo : 0x2000 ≤ a.toNat) (hhi : a.toNat < 0x3F00) :
    vramStore slot u a v = (slot, { u with nt := u.nt.write (ntIndex (mirroringOf slot) a) v }) := by
  simp [vramStore, vramRange_of_nametable hlo hhi]

theorem vramStore_of_palette (h : 0x3F00 ≤ a.toNat) :
    vramStore slot u a v = (slot, { u with pal := u.pal.write (palIndex a) v }) := by
  simp [vramStore, vramRange_of_le h]

/-- Of the PPU interface, a VRAM store writes nametable and palette RAM at most. -/
theorem vramStore_snd_eq (a : VAddr) :
    (vramStore slot u a v).2 =
      { u with nt := (vramStore slot u a v).2.nt, pal := (vramStore slot u a v).2.pal } := by
  unfold vramStore
  split <;> rfl

end

/-- CHR ROM drops a store (R73). -/
theorem Slot.chrStore_of_rom {sl : Slot} (h : sl.cart.chrBanks ≠ 0) (n : Nat) (v : Byte) : sl.chrStore n v = sl :=
  if_neg h

/-- CHR RAM takes a store at the cell that the engine names (R73). -/
theorem Slot.chrStore_of_ram {sl : Slot} (h : sl.cart.chrBanks = 0) (n : Nat) (v : Byte) :
    sl.chrStore n v = { sl with chrRam := sl.chrRam.write (sl.chrIndex n) v } := if_pos h

section
variable {a : Addr} {i : BitVec 3} {s : State} {v : Byte} (hr : region a = .ppu i)
include hr

/-- A store to a PPU register that leaves the slot alone changes the PPU interface only. -/
theorem store_of_ppuRegWrite {u : Ppu} (h : ppuRegWrite i v s.slot s.ppu = (s.slot, u)) : store a v s = s.setPpu u := by
  rw [store_of_ppu hr, h]
  rfl

/-- A store to the VRAM data port: the VRAM store, and the address moves (R113). -/
theorem store_of_data (hi : i.toNat = 7) :
    store a v s = (s.setSlot (vramStore s.slot s.ppu s.ppu.vramAddr v).1).setPpu
      { s.ppu with
        nt := (vramStore s.slot s.ppu s.ppu.vramAddr v).2.nt
        pal := (vramStore s.slot s.ppu s.ppu.vramAddr v).2.pal
        vramAddr := s.ppu.vramAddr + s.ppu.inc } := by
  have hw : ppuRegWrite i v s.slot s.ppu = s.ppu.writeData s.slot v := by simp [ppuRegWrite, hi]
  rw [store_of_ppu hr, hw, Ppu.writeData, vramStore_snd_eq]

end

/-- Settles O50: the latches by the register's number, the data port by the range of the VRAM address. -/
theorem ppuRegisterStores : Obligations.PpuRegisterStores := by
  unfold Obligations.PpuRegisterStores
  intro a v s hlo hhi
  dsimp only
  have hr := region_ppu hlo hhi
  rw [← toNat_extractLsb'_three a]
  refine ⟨fun h => ?ctrl, fun h => ?mask, fun h => ?status, fun h => ?oamAddr, fun h => ?oam, fun h hw => ?scrollX,
    fun h hw => ?scrollY, fun h => ?addr, fun h => ?data⟩
  case ctrl | mask | status | oamAddr => exact store_of_ppuRegWrite hr (by simp [ppuRegWrite, h])
  case oam =>
    exact ⟨_, store_of_ppuRegWrite hr (by simp [ppuRegWrite, h, Ppu.oamPut]), Memory.puts_write _ _ v⟩
  case scrollX | scrollY => exact store_of_ppuRegWrite hr (by simp [ppuRegWrite, h, Ppu.writeScroll, hw])
  case addr =>
    obtain ⟨na, heq, hna⟩ := s.ppu.writeAddr_eq v
    exact ⟨na, store_of_ppuRegWrite hr (by simp [ppuRegWrite, h, heq]), hna⟩
  case data =>
    rw [store_of_data hr h]
    dsimp only [State.setPpu_ppu, State.setPpu_slot, State.setSlot_slot]
    refine ⟨rfl, s.ppu.toNat_add_inc, fun hlo hhi => ?nametable, fun h => ?palette, fun h => ?pattern⟩
    case nametable =>
      rw [vramStore_of_nametable _ _ _ hlo hhi]
      exact ⟨rfl, rfl, Memory.puts_write _ _ v⟩
    case palette =>
      rw [vramStore_of_palette _ _ _ h]
      exact ⟨rfl, rfl, Memory.puts_write _ _ v⟩
    case pattern =>
      rw [vramStore_of_pattern _ _ _ h]
      refine ⟨rfl, rfl, fun hs => by rw [hs]; rfl, fun sl hs => ?_⟩
      rw [hs]
      refine ⟨fun hrom => ?_, fun hram => ⟨_, ?_, Memory.puts_write _ _ v⟩⟩
      · rw [patternStore, Slot.chrStore_of_rom hrom]
      · rw [patternStore, Slot.chrStore_of_ram hram]

end Sys2Proof.Machine


/-! Proofs for the family of spec/20_memory.md: the memory frames of the instructions. A load changes no memory, so an
instruction's effect on memory is that of its stores. -/

namespace Sys2Proof.Machine

/-! ### The memories of the block -/

/-- The memories of the PPU interface. -/
def Ppu.memories (u : Ppu) : Memory × Memory × Memory := (u.oam, u.nt, u.pal)

/-- Everything of the block that is memory: work RAM, the cartridge slot, the memories of the PPU interface. -/
def State.memories (s : State) : Memory × Option Slot × Memory × Memory × Memory := (s.ram, s.slot, s.ppu.memories)

/-! No register write is a change of memory. -/

@[simp] theorem State.memories_setA (s : State) (v : Byte) : (s.setA v).memories = s.memories := rfl
@[simp] theorem State.memories_setX (s : State) (v : Byte) : (s.setX v).memories = s.memories := rfl
@[simp] theorem State.memories_setY (s : State) (v : Byte) : (s.setY v).memories = s.memories := rfl
@[simp] theorem State.memories_setSp (s : State) (v : Byte) : (s.setSp v).memories = s.memories := rfl
@[simp] theorem State.memories_setP (s : State) (v : Byte) : (s.setP v).memories = s.memories := rfl
@[simp] theorem State.memories_setPc (s : State) (v : Addr) : (s.setPc v).memories = s.memories := rfl

@[simp] theorem ppuRegRead_memories (i : BitVec 3) (slot : Option Slot) (u : Ppu) :
    (ppuRegRead i slot u).2.memories = u.memories := by
  unfold ppuRegRead
  split
  · rfl
  · rfl
  · unfold Ppu.readData
    dsimp only
    split <;> rfl
  · rfl

/-- No load changes a memory: the registers that have a side effect change latches and the VRAM address (R49). -/
@[simp] theorem load_memories (a : Addr) (s : State) : (load a s).2.memories = s.memories := by
  unfold load
  split
  · rfl
  · next i _ =>
    simp only [State.memories, State.setPpu_ram, State.setPpu_slot, State.setPpu_ppu, ppuRegRead_memories]
  · rfl
  · rfl
  · rfl

@[simp] theorem loadWord_memories (a : Addr) (s : State) : (loadWord a s).2.memories = s.memories := by
  simp [loadWord]

@[simp] theorem resolve_memories (r : Ref) (s : State) : (resolve r s).2.memories = s.memories := by
  cases r with
  | indirectX b => exact loadWord_memories _ s
  | indirectY b => exact loadWord_memories _ s
  | _ => rfl

@[simp] theorem readOperand_memories (o : Operand) (s : State) : (readOperand o s).2.memories = s.memories := by
  cases o with
  | immediate v => rfl
  | memory r => simp [readOperand]

/-- A peek sees work RAM and the cartridge slot only. -/
theorem peek_eq_of {s t : State} {a : Addr} (hram : t.ram = s.ram) (hcart : cartLoad t.slot a = cartLoad s.slot a) :
    peek a t = peek a s := by
  unfold peek
  rw [hram, hcart]

/-- A peek does not see the status. -/
@[simp] theorem peek_setP (a : Addr) (s : State) (v : Byte) : peek a (s.setP v) = peek a s := rfl

/-! ### Instructions that store nothing -/

theorem Shifts.storesOperand_eq {m : Mnemonic} {f : Byte → Byte → Byte × Byte} (h : Shifts m f) :
    storesOperand m = true := by
  cases h <;> rfl

theorem Modifies.storesOperand_eq {m : Mnemonic} {f : Byte → Byte → Byte × Byte} (h : Modifies m f) :
    storesOperand m = true := by
  cases h with
  | shift h => exact h.storesOperand_eq
  | inc | dec => rfl

theorem Stores.storesOperand_eq {m : Mnemonic} {r : State → Byte} (h : Stores m r) : storesOperand m = true := by
  cases h <;> rfl

/-- An effect without a push and without a store to a memory operand keeps every memory. -/
theorem Effect.memories_eq {m : Mnemonic} {φ : Form} {s t : State} (h : Effect m φ s t)
    (hpush : Machine.pushes m = false) (hstore : storesOperand m = true → φ = .accumulator) :
    t.memories = s.memories := by
  cases h with
  | accumulates _ _ => simp [accumulate]
  | tests _ _ => simp [testOperand]
  | shiftsA _ _ => simp [modifyAccumulator]
  | modifiesMemory hm hφ =>
    rw [hφ] at hstore
    cases hstore hm.storesOperand_eq
  | stores hm hφ =>
    rw [hφ] at hstore
    cases hstore hm.storesOperand_eq
  | loadsX _ _ => simp [loadX]
  | loadsY _ _ => simp [loadY]
  | jumpsIndirect _ _ => simp [indirectTarget]
  | jsr hm _ | brk hm =>
    rw [hm] at hpush
    cases hpush
  | pushes hm =>
    have hall : ∀ m ∈ [Mnemonic.pha, .php], Machine.pushes m = true := by decide
    rw [hall m (List.mem_map_of_mem (f := Prod.fst) hm)] at hpush
    cases hpush
  | rts _ => simp [popWord_eq]
  | rti _ => simp [returnFromTrap, popWord_eq, pop_eq]
  | pla _ => simp [pop_eq]
  | plp _ => simp [pop_eq]
  | writesA _ | writesX _ | writesY _ | txs _ | branches _ _ | jumps _ _ | clears _ | sets _ | nop _ => rfl

/-- Settles O39: the shapes of effect that remain write registers and load, and no load changes a memory. -/
theorem nonStoringInstructionsKeepMemory : Obligations.NonStoringInstructionsKeepMemory := by
  unfold Obligations.NonStoringInstructionsKeepMemory
  intro i s t hw h
  simp only [writesMemory, Bool.or_eq_false_iff, Bool.and_eq_false_imp, decide_eq_false_iff_not, not_not] at hw
  have hmem : t.memories = s.memories := (exec_effect h).memories_eq hw.2 hw.1
  simp only [State.memories, Ppu.memories, Prod.mk.injEq] at hmem
  obtain ⟨hram, hslot, hoam, hnt, hpal⟩ := hmem
  exact ⟨hram, hslot, hoam, hnt, hpal, fun a => peek_eq_of hram (by rw [hslot])⟩

/-! ### Where a store can write -/

/-- A store outside work RAM leaves work RAM as it was. -/
theorem store_ram_of_gt {a : Addr} (h : 0x1FFF < a.toNat) (v : Byte) (s : State) : (store a v s).ram = s.ram := by
  have hc := region_covers a
  unfold store
  generalize region a = r at hc
  cases r with
  | ram k => exact absurd hc.1 (by omega)
  | dma => rw [oamDma_state, State.setPpu_ram]
  | _ => rfl

/-- A store to pattern memory does not move what the CPU loads: CHR RAM is no part of the cartridge window. -/
theorem Slot.chrStore_cpuLoad (sl : Slot) (n : Nat) (v : Byte) (a : Addr) :
    (sl.chrStore n v).cpuLoad a = sl.cpuLoad a := by
  unfold Slot.chrStore
  split <;> rfl

theorem patternStore_cartLoad (slot : Option Slot) (va : VAddr) (v : Byte) (a : Addr) :
    cartLoad (patternStore slot va v) a = cartLoad slot a := by
  cases slot with
  | none => rfl
  | some sl => exact sl.chrStore_cpuLoad _ v a

theorem vramStore_cartLoad (slot : Option Slot) (u : Ppu) (va : VAddr) (v : Byte) (a : Addr) :
    cartLoad (vramStore slot u va v).1 a = cartLoad slot a := by
  unfold vramStore
  split
  · exact patternStore_cartLoad slot va v a
  · rfl
  · rfl

theorem ppuRegWrite_cartLoad (i : BitVec 3) (v : Byte) (slot : Option Slot) (u : Ppu) (a : Addr) :
    cartLoad (ppuRegWrite i v slot u).1 a = cartLoad slot a := by
  unfold ppuRegWrite
  split
  case h_8 => exact vramStore_cartLoad slot u u.vramAddr v a
  all_goals rfl

/-- Below 0x8000 a store does not move what the cartridge window answers. -/
theorem store_cartLoad_of_lt {ea : Addr} (h : ea.toNat < 0x8000) (v : Byte) (s : State) (a : Addr) :
    cartLoad (store ea v s).slot a = cartLoad s.slot a := by
  unfold store
  split
  · rfl
  · exact ppuRegWrite_cartLoad _ v s.slot s.ppu a
  · rfl
  · rw [oamDma_state, State.setPpu_slot]
  · rw [State.setSlot_slot, cartStore_of_lt h]

/-- From 0x8000 on, as in the whole cartridge window, a store leaves CHR RAM as it was. -/
theorem store_chrRam_of_cart {a : Addr} (h : region a = .cart) (v : Byte) (s : State) :
    (store a v s).slot.map Slot.chrRam = s.slot.map Slot.chrRam := by
  have hslot (sl : Slot) : (sl.cpuStore a v).chrRam = sl.chrRam := by
    unfold Slot.cpuStore
    split
    · rfl
    · split <;> rfl
  rw [store_of_cart h, State.setSlot_slot]
  cases s.slot with
  | none => rfl
  | some sl => exact congrArg some (hslot sl)

/-- Only a store to a PPU register or to 0x4014 reaches the PPU interface. -/
theorem store_ppu {a : Addr} (h : a.toNat ≤ 0x1FFF ∨ 0x3FFF < a.toNat) (hne : a ≠ 0x4014#16) (v : Byte) (s : State) :
    (store a v s).ppu = s.ppu := by
  have hc := region_covers a
  unfold store
  generalize region a = r at hc
  cases r with
  | ppu i =>
    obtain ⟨hlo, hhi, -⟩ := hc
    omega
  | dma => exact absurd hc hne
  | _ => rfl

/-- A store to work RAM is seen through the mirrors of its cell only (R43). -/
theorem peek_store_of_ram {ea a : Addr} (h : ea.toNat ≤ 0x1FFF) (hne : sameRamCell ea a = false) (v : Byte)
    (s : State) : peek a (store ea v s) = peek a s := by
  rw [store_of_ram (region_ram h)]
  unfold peek
  cases hr : region a with
  | ram k =>
    obtain ⟨ha, rfl⟩ := region_eq_ram hr
    simp only [sameRamCell, h, ha, decide_true, Bool.true_and, decide_eq_false_iff_not] at hne
    exact Memory.read_write_other _ v (Ne.symm hne)
  | _ => rfl

/-! ### Instructions that store to their operand -/

/-- An effect of a mnemonic that stores to a memory operand is a read-modify-write or a store. -/
theorem Effect.of_storesOperand {m : Mnemonic} {ref : Ref} {s t : State} (h : Effect m (.memory ref) s t)
    (hm : storesOperand m = true) : (∃ f, t = modifyMemory f ref s) ∨ ∃ v, t = storeOperand ref v s := by
  cases h with
  | modifiesMemory _ hφ =>
    cases hφ
    exact .inl ⟨_, rfl⟩
  | stores _ hφ =>
    cases hφ
    exact .inr ⟨_, rfl⟩
  | shiftsA _ hφ => cases hφ
  | accumulates h _ => cases h <;> cases hm
  | tests h _ => cases h <;> cases hm
  | branches h _ =>
    have hmem := branchCondition_mem h
    grind [storesOperand]
  | writesA h | writesX h | writesY h | pushes h | clears h | sets h => grind [storesOperand]
  | loadsX h _ | loadsY h _ | jumps h _ | jumpsIndirect h _ | jsr h _ | txs h | rts h | brk h | rti h | pla h | plp h
  | nop h =>
    rw [h] at hm
    cases hm

/-- An instruction that stores to its operand is one store at its effective address, between loads, which change latches
of the PPU interface at most, and a write of the status. -/
theorem exec_storesOperand {i : Instr} {ref : Ref} {s t : State} (hm : storesOperand i.mnemonic = true)
    (hφ : i.form = .memory ref) (h : exec i s = .next t) :
    ∃ u v q, u.memories = s.ppu.memories ∧ t = (store (resolve ref s).1 v (s.setPpu u)).setP q := by
  have heff := exec_effect h
  rw [hφ] at heff
  rcases heff.of_storesOperand hm with ⟨f, rfl⟩ | ⟨v, rfl⟩
  · exact ⟨_, _, _, congrArg (fun m => m.2.2) (readOperand_memories (.memory ref) s), modifyMemory_eq f ref s⟩
  · exact ⟨_, v, _, congrArg (fun m => m.2.2) (resolve_memories ref s),
      (storeOperand_eq ref v s).trans (State.setP_self _).symm⟩

/-- Settles O40: the instruction's one store, by the window of its address; its loads change no memory. -/
theorem storingInstructionsWriteOneCell : Obligations.StoringInstructionsWriteOneCell := by
  unfold Obligations.StoringInstructionsWriteOneCell
  intro i ref s t hm hφ h
  obtain ⟨u, v, q, hu, rfl⟩ := exec_storesOperand hm hφ h
  dsimp only
  generalize (resolve ref s).1 = ea
  simp only [peek_setP]
  refine ⟨fun hle => ⟨?_, fun a ha => ?_⟩, fun hgt => ⟨?_, fun a ha => ?_⟩, fun hgt hlt a => ?_, fun hge => ⟨?_, ?_⟩,
    fun hout hne => ?_⟩
  · rw [State.setP_slot, store_of_ram (region_ram hle)]
    rfl
  · rw [peek_store_of_ram hle ha, peek_setPpu]
  · rw [State.setP_ram, store_ram_of_gt hgt, State.setPpu_ram]
  · rw [peek_eq_of (store_ram_of_gt hgt v _) (by rw [cartLoad_of_lt ha, cartLoad_of_lt ha]), peek_setPpu]
  · rw [peek_eq_of (store_ram_of_gt hgt v _) (store_cartLoad_of_lt hlt v _ a), peek_setPpu]
  · exact store_cart ea v (s.setPpu u)
  · exact store_chrRam_of_cart (region_cart (by omega)) v (s.setPpu u)
  · rw [State.setP_ppu, store_ppu hout hne, State.setPpu_ppu]
    simpa only [Ppu.memories, Prod.mk.injEq] using hu

end Sys2Proof.Machine


/-! Proofs for the family of spec/21_cartridge_mapper.md: what the four mapper engines map and store, and CHR memory. -/

namespace Sys2Proof.Machine

/-! ### Addresses and banks -/

/-- The address within a 16 KB bank is the address modulo the bank size. -/
theorem toNat_and_3FFF (a : Addr) : (a &&& 0x3FFF#16).toNat = a.toNat % 16384 := by
  rw [BitVec.toNat_and]
  exact Nat.and_two_pow_sub_one_eq_mod a.toNat 14

/-- The low four bits of a bank register. -/
theorem toNat_and_0F (b : BitVec 5) : (b &&& 0x0F#5).toNat = b.toNat % 16 := by
  rw [BitVec.toNat_and]
  exact Nat.and_two_pow_sub_one_eq_mod b.toNat 4

/-- The first bank of the pair that a PRG bank register names. -/
theorem toNat_and_0E : ∀ b : BitVec 5, (b &&& 0x0E#5).toNat = b.toNat % 16 - b.toNat % 16 % 2 := by decide

/-- The first bank of the pair that a CHR bank register names. -/
theorem toNat_and_1E : ∀ b : BitVec 5, (b &&& 0x1E#5).toNat = b.toNat - b.toNat % 2 := by decide

/-- The offset into the cartridge window. -/
theorem toNat_sub_8000 {a : Addr} (h : 0x8000 ≤ a.toNat) : (a - 0x8000#16).toNat = a.toNat - 0x8000 :=
  BitVec.toNat_sub_of_le h

/-! ### The CPU port -/

/-- The register write of each engine (R76, R79, R86, R89). -/
def Engine.write (e : Engine) (a : Addr) (v : Byte) : Engine :=
  match e with
  | .m0 => .m0
  | .m1 r => .m1 (r.write a v)
  | .m2 _ => .m2 v
  | .m3 _ => .m3 v

section
variable (sl : Slot) {a : Addr}

theorem Slot.cpuStore_of_lt (h : a.toNat < 0x8000) (v : Byte) : sl.cpuStore a v = sl := if_pos h

theorem Slot.cpuLoad_of_le (h : 0x8000 ≤ a.toNat) : sl.cpuLoad a = sl.cart.prg.read (sl.prgIndex a) :=
  if_neg (by omega)

/-- A store from 0x8000 on writes the engine's registers and nothing else of the slot. -/
theorem Slot.cpuStore_of_le (h : 0x8000 ≤ a.toNat) (v : Byte) :
    sl.cpuStore a v = { sl with engine := sl.engine.write a v } := by
  rw [Slot.cpuStore, if_neg (by omega)]
  obtain ⟨cart, engine, chrRam⟩ := sl
  cases engine <;> rfl

end

/-! ### The serial port of M1 -/

/-- A byte's serial bit in place `k` of the accumulator (R80). -/
def serialBit (v : Byte) (k : Nat) : BitVec 5 := (if v.getLsbD 0 then 1#5 else 0#5) <<< k

theorem getLsbD_serialBit (v : Byte) (k : Nat) {i : Nat} (hi : i < 5) :
    (serialBit v k).getLsbD i = (decide (i = k) && v.getLsbD 0) := by
  unfold serialBit
  cases v.getLsbD 0 with
  | false => simp
  | true =>
    rw [if_pos rfl, BitVec.getLsbD_shiftLeft, BitVec.getLsbD_one, Bool.and_true, Bool.eq_iff_iff]
    simp only [Bool.and_eq_true, Bool.not_eq_true', decide_eq_true_eq, decide_eq_false_iff_not]
    omega

/-- The accumulator after five serial bits, the first one lowest (R80). -/
def serialWord (b0 b1 b2 b3 b4 : Byte) : BitVec 5 :=
  serialBit b0 0 ||| serialBit b1 1 ||| serialBit b2 2 ||| serialBit b3 3 ||| serialBit b4 4

/-- The register that a full accumulator is loaded into, by bits 14:13 of the address (R80). -/
def M1Regs.setRegister (r : M1Regs) (i : Nat) (v : BitVec 5) : M1Regs :=
  match i with
  | 0 => { r with control := v }
  | 1 => { r with chrBank0 := v }
  | 2 => { r with chrBank1 := v }
  | _ => { r with prgBank := v }

theorem toNat_extractLsb'_thirteen_two (a : Addr) : (a.extractLsb' 13 2).toNat = a.toNat / 8192 % 4 := by
  rw [BitVec.extractLsb'_toNat, Nat.shiftRight_eq_div_pow]

section
variable {r : M1Regs} {v : Byte}

/-- The reset write (R79). -/
theorem M1Regs.write_reset (h : v.getLsbD 7 = true) (a : Addr) :
    r.write a v = { r with shift := 0#5, count := 0, control := r.control ||| 0x0C#5 } := if_pos h

variable (h : v.getLsbD 7 = false)
include h

/-- A serial bit before the fifth is accumulated (R80). -/
theorem M1Regs.write_shift (hc : r.count < 4) (a : Addr) :
    r.write a v = { r with shift := r.shift ||| serialBit v r.count, count := r.count + 1 } := by
  have hn : ¬ r.count + 1 = 5 := by omega
  simp only [M1Regs.write, h, hn, if_false, serialBit, Bool.false_eq_true]

/-- The fifth serial bit loads a register and empties the accumulator (R80). -/
theorem M1Regs.write_load (hc : r.count = 4) (a : Addr) :
    r.write a v =
      { r with shift := 0#5, count := 0 }.setRegister (a.toNat / 8192 % 4) (r.shift ||| serialBit v 4) := by
  rw [← toNat_extractLsb'_thirteen_two]
  unfold M1Regs.write
  rw [if_neg (Bool.not_eq_true _ ▸ h), hc]
  rfl

end

/-- Five serial writes from an empty accumulator (R80). -/
theorem M1Regs.write_five {r : M1Regs} {b0 b1 b2 b3 b4 : Byte} (hs : r.shift = 0#5) (hc : r.count = 0)
    (hb : ∀ b ∈ [b0, b1, b2, b3, b4], b.getLsbD 7 = false) (a0 a1 a2 a3 a : Addr) :
    ((((r.write a0 b0).write a1 b1).write a2 b2).write a3 b3).write a b4 =
      r.setRegister (a.toNat / 8192 % 4) (serialWord b0 b1 b2 b3 b4) := by
  obtain ⟨shift, count, control, chrBank0, chrBank1, prgBank⟩ := r
  obtain rfl : shift = 0#5 := hs
  obtain rfl : count = 0 := hc
  simp only [List.forall_mem_cons, List.not_mem_nil, false_implies, implies_true, and_true] at hb
  obtain ⟨h0, h1, h2, h3, h4⟩ := hb
  rw [M1Regs.write_shift h0 (by simp), M1Regs.write_shift h1 (by simp), M1Regs.write_shift h2 (by simp),
    M1Regs.write_shift h3 (by simp), M1Regs.write_load h4 rfl]
  simp only [BitVec.zero_or]
  rfl

/-- Five stores from 0x8000 on are five writes of the serial engine. -/
theorem fiveStores_m1 {sl : Slot} {r : M1Regs} (he : sl.engine = .m1 r) {a0 a1 a2 a3 a : Addr}
    (ha : ∀ x ∈ [a0, a1, a2, a3, a], 0x8000 ≤ x.toNat) (b0 b1 b2 b3 b4 : Byte) :
    fiveStores sl a0 a1 a2 a3 a b0 b1 b2 b3 b4 =
      { sl with
        engine := .m1 (((((r.write a0 b0).write a1 b1).write a2 b2).write a3 b3).write a b4) } := by
  simp only [List.forall_mem_cons, List.not_mem_nil, false_implies, implies_true, and_true] at ha
  obtain ⟨h0, h1, h2, h3, h4⟩ := ha
  rw [fiveStores, Slot.cpuStore_of_le _ h0, Slot.cpuStore_of_le _ h1, Slot.cpuStore_of_le _ h2,
    Slot.cpuStore_of_le _ h3, Slot.cpuStore_of_le _ h4, he]
  rfl

/-- Settles O45: four writes fill the accumulator, the fifth loads it; the reset write is the other branch. -/
theorem serialEngineLoadsARegister : Obligations.SerialEngineLoadsARegister := by
  unfold Obligations.SerialEngineLoadsARegister
  intro sl r he
  refine ⟨fun a v h => sl.cpuStore_of_lt h v, fun a0 a1 a2 a3 a b0 b1 b2 b3 b4 hs hc ha hb => ?five,
    fun a v h hv => ?reset⟩
  case five =>
    refine ⟨serialWord b0 b1 b2 b3 b4, ?_, ?_, ?_, ?_, ?_, ?_⟩
    case refine_6 =>
      rw [fiveStores_m1 he ha, M1Regs.write_five hs hc hb]
      rfl
    all_goals simp [serialWord, getLsbD_serialBit, -BitVec.getLsbD_eq_getElem]
  case reset => rw [sl.cpuStore_of_le h, he, Engine.write, M1Regs.write_reset hv]

/-! ### What M1 maps -/

/-- The PRG mode, from bits 3 and 2 of `control` (R81). -/
theorem M1Regs.toNat_prgMode (r : M1Regs) :
    r.prgMode.toNat = 2 * (r.control.getLsbD 3).toNat + (r.control.getLsbD 2).toNat := by
  unfold M1Regs.prgMode
  generalize r.control = x
  revert x
  decide

section
variable (c : Cartridge) {r : M1Regs} (a : Addr)

/-- Modes 0 and 1: a pair of banks over both windows (R82). -/
theorem prgIndexM1_pair (h3 : r.control.getLsbD 3 = false) :
    prgIndexM1 c r a =
      ((if a.toNat < 0xC000 then r.prgBank.toNat % 16 - r.prgBank.toNat % 16 % 2
        else r.prgBank.toNat % 16 - r.prgBank.toNat % 16 % 2 + 1) * 16384 + a.toNat % 16384) % c.prgSize := by
  have hm : r.prgMode.toNat = (r.control.getLsbD 2).toNat := by rw [r.toNat_prgMode, h3]; simp
  simp only [prgIndexM1, hm, toNat_and_3FFF, toNat_and_0E, decide_eq_true_eq]
  cases r.control.getLsbD 2 <;> simp only [Bool.toNat_false, Bool.toNat_true] <;> split <;> rfl

/-- Mode 2: the first bank in the low window, the selected one in the high window (R82). -/
theorem prgIndexM1_fixFirst (h3 : r.control.getLsbD 3 = true) (h2 : r.control.getLsbD 2 = false) :
    prgIndexM1 c r a =
      if a.toNat < 0xC000 then a.toNat % 16384 else (r.prgBank.toNat % 16 * 16384 + a.toNat % 16384) % c.prgSize := by
  have hm : r.prgMode.toNat = 2 := by rw [r.toNat_prgMode, h3, h2]; rfl
  simp only [prgIndexM1, hm, toNat_and_3FFF, toNat_and_0F, decide_eq_true_eq]

/-- Mode 3: the selected bank in the low window, the last one in the high window (R82). -/
theorem prgIndexM1_fixLast (h3 : r.control.getLsbD 3 = true) (h2 : r.control.getLsbD 2 = true) :
    prgIndexM1 c r a =
      if a.toNat < 0xC000 then (r.prgBank.toNat % 16 * 16384 + a.toNat % 16384) % c.prgSize
      else (c.prgBanks - 1) * 16384 + a.toNat % 16384 := by
  have hm : r.prgMode.toNat = 3 := by rw [r.toNat_prgMode, h3, h2]; rfl
  simp only [prgIndexM1, hm, toNat_and_3FFF, toNat_and_0F, decide_eq_true_eq]

end

section
variable {sl : Slot} {r : M1Regs} (he : sl.engine = .m1 r)
include he

theorem Slot.cpuLoad_m1 {a : Addr} (ha : 0x8000 ≤ a.toNat) :
    sl.cpuLoad a = sl.cart.prg.read (prgIndexM1 sl.cart r a) := by
  rw [sl.cpuLoad_of_le ha, Slot.prgIndex, he]

/-- CHR mode 0: a pair of 4 KB banks (R83). -/
theorem Slot.chrIndex_m1_pair (h4 : r.control.getLsbD 4 = false) (n : Nat) :
    sl.chrIndex n = ((r.chrBank0.toNat - r.chrBank0.toNat % 2) * 4096 + n) % sl.cart.chrSize := by
  simp only [Slot.chrIndex, he, M1Regs.chrMode, h4, toNat_and_1E, Bool.false_eq_true, if_false]

/-- CHR mode 1: a 4 KB bank for each half of pattern memory (R83). -/
theorem Slot.chrIndex_m1_halves (h4 : r.control.getLsbD 4 = true) {n : Nat} (hn : n < 0x2000) :
    sl.chrIndex n =
      if n < 4096 then (r.chrBank0.toNat * 4096 + n) % sl.cart.chrSize
      else (r.chrBank1.toNat * 4096 + (n - 4096)) % sl.cart.chrSize := by
  simp only [Slot.chrIndex, he, M1Regs.chrMode, h4, if_true]
  split
  · rfl
  · rw [show n % 0x1000 = n - 4096 by omega]

theorem Slot.mirroring_m1 : sl.mirroring = r.mirroring := by
  rw [Slot.mirroring, he]

end

/-- Settles O46: by the PRG mode, the CHR mode and the mirroring bits of `control`. -/
theorem serialEngineBanks : Obligations.SerialEngineBanks := by
  unfold Obligations.SerialEngineBanks
  intro sl r c n he hc hn
  dsimp only
  rw [Slot.cpuLoad_m1 he hc]
  refine ⟨fun h3 => ?pair, fun h3 h2 => ?fixFirst, fun h3 h2 => ?fixLast, fun h4 => Slot.chrIndex_m1_pair he h4 n,
    fun h4 => Slot.chrIndex_m1_halves he h4 hn, ?mirroring⟩
  case pair =>
    rw [prgIndexM1_pair _ _ h3]
    rfl
  case fixFirst =>
    rw [prgIndexM1_fixFirst _ _ h3 h2, apply_ite sl.cart.prg.read]
    rfl
  case fixLast =>
    rw [prgIndexM1_fixLast _ _ h3 h2, apply_ite sl.cart.prg.read]
    rfl
  case mirroring =>
    have hbits : (r.control.extractLsb' 0 2).toNat = r.control.toNat % 4 := by
      rw [BitVec.extractLsb'_toNat, Nat.shiftRight_zero]
    rw [Slot.mirroring_m1 he, ← hbits]
    rfl

/-! ### The engines without a serial port -/

/-- One PRG bank is mirrored (R75). -/
theorem prgIndexFixed_one {c : Cartridge} (h : c.prgBanks = 1) {a : Addr} (ha : 0x8000 ≤ a.toNat) :
    prgIndexFixed c a = a.toNat % 16384 := by
  rw [prgIndexFixed, if_pos h, toNat_and_3FFF, toNat_sub_8000 ha]
  omega

/-- More than one PRG bank is addressed directly (R75). -/
theorem prgIndexFixed_more {c : Cartridge} (h : c.prgBanks ≠ 1) {a : Addr} (ha : 0x8000 ≤ a.toNat) :
    prgIndexFixed c a = (a.toNat - 0x8000) % (c.prgBanks * 16384) := by
  rw [prgIndexFixed, if_neg h, toNat_sub_8000 ha]
  rfl

section
variable {sl : Slot} {b : Byte}

/-- M0 and M3 share the fixed PRG translation (R75, R90). -/
theorem Slot.prgIndex_fixed (he : sl.engine = .m0 ∨ sl.engine = .m3 b) (a : Addr) :
    sl.prgIndex a = prgIndexFixed sl.cart a := by
  obtain he | he := he <;> rw [Slot.prgIndex, he]

/-- M0 and M2 index the CHR data directly (R77, R87). -/
theorem Slot.chrIndex_direct (he : sl.engine = .m0 ∨ sl.engine = .m2 b) (n : Nat) : sl.chrIndex n = n := by
  obtain he | he := he <;> rw [Slot.chrIndex, he]

/-- Without a serial port, the mirroring is the header's (R77, R87, R90). -/
theorem Slot.mirroring_fixed (he : sl.engine = .m0 ∨ sl.engine = .m2 b ∨ sl.engine = .m3 b) :
    sl.mirroring = sl.cart.mirroring := by
  obtain he | he | he := he <;> rw [Slot.mirroring, he]

theorem Slot.prgIndex_m2_low (he : sl.engine = .m2 b) {a : Addr} (h : a.toNat < 0xC000) :
    sl.prgIndex a = b.toNat % sl.cart.prgBanks * 16384 + a.toNat % 16384 := by
  simp only [Slot.prgIndex, he, prgIndexM2, if_pos h, toNat_and_3FFF]

theorem Slot.prgIndex_m2_high (he : sl.engine = .m2 b) {a : Addr} (h : 0xC000 ≤ a.toNat) :
    sl.prgIndex a = (sl.cart.prgBanks - 1) * 16384 + a.toNat % 16384 := by
  simp only [Slot.prgIndex, he, prgIndexM2, if_neg (show ¬ a.toNat < 0xC000 by omega), toNat_and_3FFF]

/-- M3's register is no part of its PRG translation (R90). -/
theorem Slot.cpuLoad_m3_setBank (he : sl.engine = .m3 b) (v : Byte) (a : Addr) :
    { sl with engine := .m3 v }.cpuLoad a = sl.cpuLoad a := by
  rw [Slot.cpuLoad, Slot.cpuLoad, Slot.prgIndex_fixed (.inr rfl), Slot.prgIndex_fixed (.inr he)]

end

/-- Settles O47: each engine's own translation, with the mapper's offset written as a remainder. -/
theorem fixedAndDirectEngines : Obligations.FixedAndDirectEngines := by
  unfold Obligations.FixedAndDirectEngines
  intro sl b v a c n ha hc hn
  rw [sl.cpuLoad_of_le hc, sl.cpuStore_of_le ha]
  refine ⟨fun he => ⟨fun h1 => ?one, fun h1 => ?more⟩, fun he => ⟨fun h => ?low, fun h => ?high⟩,
    fun he => ?store0, fun he => by rw [he]; rfl, fun he => ⟨by rw [he]; rfl, ?store3⟩,
    fun he => Slot.chrIndex_direct he n, fun he => ?chr, Slot.mirroring_fixed⟩
  case one => rw [Slot.prgIndex_fixed he, prgIndexFixed_one h1 hc]
  case more => rw [Slot.prgIndex_fixed he, prgIndexFixed_more h1 hc]
  case low => rw [Slot.prgIndex_m2_low he h]
  case high => rw [Slot.prgIndex_m2_high he h]
  case store0 => rw [he, Engine.write, ← he]
  case store3 => rw [he, Engine.write, Slot.cpuLoad_m3_setBank he, sl.cpuLoad_of_le hc]
  case chr => rw [Slot.chrIndex, he]

/-! ### CHR memory -/

/-- Settles O48: by whether the cartridge has CHR banks. -/
theorem chrMemory : Obligations.ChrMemory := by
  unfold Obligations.ChrMemory
  intro sl n v
  exact ⟨fun hram => ⟨if_pos hram, if_pos hram, _, Slot.chrStore_of_ram hram n v, Memory.puts_write _ _ v⟩,
    fun hrom => ⟨if_neg hrom, if_neg hrom, Slot.chrStore_of_rom hrom n v⟩⟩

end Sys2Proof.Machine


/-! Proofs for the family of spec/21_cartridge_mapper.md: the ROM image, what `InstallCartridge` checks of it and what it
installs. -/

namespace Sys2Proof.Machine

/-! ### The header -/

theorem parseHeader_magicOk_eq_false (img : List Byte) :
    (parseHeader img).magicOk = false ↔ img.take 4 ≠ [0x4E#8, 0x45#8, 0x53#8, 0x1A#8] :=
  beq_eq_false_iff_ne

/-- The mapper id: its high digit from byte 7, its low digit from byte 6 (R66). -/
theorem parseHeader_mapperId_toNat (img : List Byte) :
    (parseHeader img).mapperId.toNat = (imageByte img 7).toNat / 16 * 16 + (imageByte img 6).toNat / 16 := by
  have hmask : ∀ x : Byte, x &&& 0xF0#8 = (x >>> 4) <<< 4 := by decide
  have hlow : (imageByte img 6).toNat / 16 < 2 ^ 4 := by omega
  show ((imageByte img 7 &&& 0xF0#8) ||| (imageByte img 6 >>> 4)).toNat = _
  rw [hmask, BitVec.toNat_or, BitVec.toNat_shiftLeft, BitVec.toNat_ushiftRight, BitVec.toNat_ushiftRight,
    Nat.shiftRight_eq_div_pow, Nat.shiftRight_eq_div_pow, Nat.shiftLeft_eq,
    Nat.mod_eq_of_lt (by omega), mul_comm _ (2 ^ 4), ← Nat.two_pow_add_eq_or_of_lt hlow, mul_comm]

/-- The mirroring is bit 0 of byte 6 (R67). -/
theorem parseHeader_mirroring (img : List Byte) :
    (parseHeader img).mirroring = if (imageByte img 6).toNat % 2 = 1 then .vertical else .horizontal := by
  simp [parseHeader, BitVec.getLsbD, Nat.testBit_zero]

/-! ### The engine of a mapper id -/

/-- The engines in their power-on states, by mapper id (R70, R74, R78, R85, R88); no image of an id above 3 is accepted. -/
def powerOnEngine (id : Nat) : Engine :=
  match id with
  | 0 => .m0
  | 1 => .m1 M1Regs.powerOn
  | 2 => .m2 0x00#8
  | _ => .m3 0x00#8

theorem engineOf_eq (id : Byte) : engineOf id = if 3 < id.toNat then none else some (powerOnEngine id.toNat) := by
  unfold engineOf
  generalize id.toNat = n
  match n with
  | 0 | 1 | 2 | 3 => rfl
  | n + 4 => exact (if_pos (by omega)).symm

theorem engineOf_isNone (id : Byte) : (engineOf id).isNone = true ↔ 3 < id.toNat := by
  rw [engineOf_eq]
  split
  · next h => simpa using h
  · next h => simpa using h

/-! ### The checks -/

/-- A header is refused exactly when one of the checks of R67 and R70 fails. -/
theorem Header.error_isSome (h : Header) (length : Nat) :
    (h.error length).isSome = true ↔
      h.magicOk = false ∨ h.prgBanks = 0 ∨ length < h.imageSize ∨ 3 < h.mapperId.toNat := by
  rw [← engineOf_isNone]
  unfold Header.error
  split_ifs with hmagic hprg hlen hmapper <;> simp [*]

section
variable {img : List Byte} {s : State}

/-- An image is refused exactly when a check fails: an engine is missing only if the last one does. -/
theorem installCartridge_refused :
    (∃ e, installCartridge img s = .refused e) ↔ ((parseHeader img).error img.length).isSome = true := by
  unfold installCartridge
  dsimp only
  cases herr : (parseHeader img).error img.length with
  | some e => simp
  | none =>
    have hid : ¬ 3 < (parseHeader img).mapperId.toNat := fun h => by
      have := ((parseHeader img).error_isSome img.length).mpr (.inr (.inr (.inr h)))
      simp [herr] at this
    simp [engineOf_eq, hid]

/-- What an accepted image leaves (R69): the engine of its id beside its cartridge. -/
theorem installCartridge_installed {t : State} (h : installCartridge img s = .installed t) :
    (parseHeader img).mapperId.toNat ≤ 3 ∧
      t = s.setSlot (some (freshSlot (cartridgeOf img) (powerOnEngine (parseHeader img).mapperId.toNat))) := by
  unfold installCartridge at h
  dsimp only at h
  split at h
  · cases h
  · next e _ he =>
    rw [engineOf_eq] at he
    split at he
    · cases he
    · cases he
      cases h
      exact ⟨by omega, rfl⟩
  · cases h

end

/-! ### The data -/

/-- A slice of an image, as a memory, holds the image's bytes. -/
theorem Memory.read_ofBytes_slice (img : List Byte) (start : Nat) {size k : Nat} (hk : k < size) :
    (Memory.ofBytes 0 ((img.drop start).take size)).read k = imageByte img (start + k) := by
  have h := Memory.read_ofBytes 0 k ((img.drop start).take size)
  rw [Nat.zero_add] at h
  rw [h, List.getD_eq_getElem?_getD, List.getElem?_take_of_lt hk, List.getElem?_drop, imageByte,
    List.getD_eq_getElem?_getD]
  rfl

/-- Settles O58: the checks by the header's fields, the data by its place in the image. -/
theorem installCartridgeChecksTheImage : Obligations.InstallCartridgeChecksTheImage := by
  unfold Obligations.InstallCartridgeChecksTheImage
  intro img s
  dsimp only
  have hid := parseHeader_mapperId_toNat img
  refine ⟨?checks, fun t h => ?installs⟩
  case checks =>
    rw [installCartridge_refused, Header.error_isSome, parseHeader_magicOk_eq_false, hid]
    rfl
  case installs =>
    obtain ⟨_, rfl⟩ := installCartridge_installed h
    refine ⟨_, rfl, rfl, rfl, rfl, hid, parseHeader_mirroring img, fun k hk => Memory.read_ofBytes_slice img _ hk,
      fun k hk => Memory.read_ofBytes_slice img _ hk, fun k => rfl, ?_⟩
    rw [hid]
    rfl

end Sys2Proof.Machine


/-! Proofs for the family of spec/22_ppu_interface.md: the VRAM address map, the VRAM address port and the buffered
read, OAM DMA, and the PPU cycle. -/

namespace Sys2Proof.Machine

/-! ### The VRAM address map -/

/-- A mask of the low `k` bits is a remainder. -/
theorem toNat_and_of_low {n : Nat} (a : BitVec n) {m : BitVec n} (k : Nat) (hm : m.toNat = 2 ^ k - 1) :
    (a &&& m).toNat = a.toNat % 2 ^ k := by
  rw [BitVec.toNat_and, hm, Nat.and_two_pow_sub_one_eq_mod]

/-- A mask of bit `k` alone. -/
theorem toNat_and_of_bit {n : Nat} (a : BitVec n) {m : BitVec n} (k : Nat) (hm : m.toNat = 2 ^ k) :
    (a &&& m).toNat = 2 ^ k * (a.toNat / 2 ^ k % 2) := by
  rw [BitVec.toNat_and, hm, Nat.and_two_pow, Nat.toNat_testBit, Nat.mul_comm]

theorem ntIndex_vertical (a : VAddr) : ntIndex .vertical a = a.toNat % 4096 % 2048 := by
  rw [ntIndex, toNat_and_of_low _ 11 rfl, toNat_and_of_low _ 12 rfl]
  rfl

/-- Bit 11 of the address, moved to bit 10, stands above the low ten (R118). -/
theorem ntIndex_horizontal (a : VAddr) :
    ntIndex .horizontal a = a.toNat % 4096 / 2048 * 1024 + a.toNat % 1024 := by
  rw [ntIndex, BitVec.toNat_or, toNat_and_of_bit _ 10 rfl, toNat_and_of_low _ 10 rfl, BitVec.toNat_ushiftRight,
    toNat_and_of_low _ 12 rfl, ← Nat.two_pow_add_eq_or_of_lt (Nat.mod_lt _ (by decide)), Nat.shiftRight_eq_div_pow]
  omega

theorem ntIndex_oneScreenLow (a : VAddr) : ntIndex .oneScreenLow a = a.toNat % 1024 := by
  rw [ntIndex, toNat_and_of_low _ 10 rfl, toNat_and_of_low _ 12 rfl]
  omega

theorem ntIndex_oneScreenHigh (a : VAddr) : ntIndex .oneScreenHigh a = 1024 + a.toNat % 1024 := by
  have hbit : (0x0400#14).toNat = 2 ^ 10 * 1 := rfl
  rw [ntIndex, BitVec.toNat_or, toNat_and_of_low _ 10 rfl, toNat_and_of_low _ 12 rfl, hbit,
    ← Nat.two_pow_add_eq_or_of_lt (Nat.mod_lt _ (by decide))]
  omega

/-- The background cells of the sprite palettes are those of the background palettes (R119). -/
theorem palIndex_eq (a : VAddr) :
    palIndex a = if a.toNat % 32 ∈ [0x10, 0x14, 0x18, 0x1C] then a.toNat % 32 - 16 else a.toNat % 32 := by
  have hlt := Nat.mod_lt a.toNat (show 0 < 32 by decide)
  have hmirror : (0x0F < a.toNat % 32 ∧ a.toNat % 32 % 4 = 0) ↔ a.toNat % 32 ∈ [0x10, 0x14, 0x18, 0x1C] := by
    simp only [List.mem_cons, List.not_mem_nil, or_false]
    omega
  have hcell : (a &&& 0x001F#14).toNat = a.toNat % 32 := toNat_and_of_low a 5 rfl
  simp only [palIndex, hcell, hmirror]

section
variable (slot : Option Slot) (u : Ppu) {a : VAddr}

theorem vramLoad_of_pattern (h : a.toNat < 0x2000) : vramLoad slot u a = patternLoad slot a := by
  rw [vramLoad, vramRange_of_lt h]

theorem vramLoad_of_nametable (hlo : 0x2000 ≤ a.toNat) (hhi : a.toNat < 0x3F00) :
    vramLoad slot u a = u.nt.read (ntIndex (mirroringOf slot) a) := by
  rw [vramLoad, vramRange_of_nametable hlo hhi]

theorem vramLoad_of_palette (h : 0x3F00 ≤ a.toNat) : vramLoad slot u a = u.pal.read (palIndex a) := by
  rw [vramLoad, vramRange_of_le h]

end

/-- Settles O52: the load by the range of the address, the cell indices by the bits their masks keep. -/
theorem vramAddressMap : Obligations.VramAddressMap := by
  unfold Obligations.VramAddressMap
  intro slot u a
  refine ⟨?pattern, vramLoad_of_nametable slot u, vramLoad_of_palette slot u, ntIndex_vertical a,
    ntIndex_horizontal a, ntIndex_oneScreenLow a, ntIndex_oneScreenHigh a, palIndex_eq a⟩
  case pattern =>
    rintro sl rfl
    exact ⟨rfl, vramLoad_of_pattern _ u⟩

/-! ### The VRAM address port and the buffered read -/

/-- A store to register 6 is the address write (R111). -/
theorem store_vramAddr (v : Byte) (s : State) : store 0x2006#16 v s = s.setPpu (s.ppu.writeAddr v) :=
  store_of_ppuRegWrite (region_ppu (by decide) (by decide)) rfl

/-- A load of register 7 is the data read (R112). -/
theorem load_vramData (s : State) :
    load 0x2007#16 s = ((s.ppu.readData s.slot).1, s.setPpu (s.ppu.readData s.slot).2) :=
  load_of_ppu (region_ppu (by decide) (by decide)) s

/-- From the cleared toggle, two stores to register 6 set the whole address and clear the toggle again (R111). -/
theorem store_vramAddr_twice {s : State} (hw : s.ppu.w = false) (hi lo : Byte) :
    ∃ na, store 0x2006#16 lo (store 0x2006#16 hi s) = s.setPpu { s.ppu with vramAddr := na } ∧
      na.toNat = hi.toNat % 64 * 256 + lo.toNat := by
  obtain ⟨va, hfirst, hva⟩ := s.ppu.writeAddr_eq hi
  obtain ⟨na, hsecond, hna⟩ := ({ s.ppu with vramAddr := va, w := !s.ppu.w } : Ppu).writeAddr_eq lo
  refine ⟨na, ?_, ?_⟩
  · rw [store_vramAddr, store_vramAddr, hfirst, State.setPpu_ppu, hsecond, State.setPpu_setPpu, Bool.not_not]
  · simp only [hw, Bool.not_false, Bool.false_eq_true, if_true, if_false] at hva hna
    have hhigh : va.toNat / 256 = hi.toNat % 64 := by omega
    rw [hna, hhigh]

section
variable (slot : Option Slot) {u : Ppu}

theorem Ppu.readData_of_lt (h : u.vramAddr.toNat < 0x3F00) :
    u.readData slot =
      (u.readBuf, { u with readBuf := vramLoad slot u u.vramAddr, vramAddr := u.vramAddr + u.inc }) := if_pos h

theorem Ppu.readData_of_le (h : 0x3F00 ≤ u.vramAddr.toNat) :
    u.readData slot = (vramLoad slot u u.vramAddr, { u with vramAddr := u.vramAddr + u.inc }) :=
  if_neg (Nat.not_lt.2 h)

/-- A data read moves the address, buffered or not (R114). -/
theorem Ppu.readData_vramAddr (u : Ppu) : (u.readData slot).2.vramAddr = u.vramAddr + u.inc := by
  rcases Nat.lt_or_ge u.vramAddr.toNat 0x3F00 with h | h
  · rw [readData_of_lt slot h]
  · rw [readData_of_le slot h]

end

/-- Settles O51: the two address writes set the address, and the data read goes by its range. -/
theorem vramAddressAndBufferedRead : Obligations.VramAddressAndBufferedRead := by
  unfold Obligations.VramAddressAndBufferedRead
  intro s hi lo hw
  obtain ⟨na, ht, hna⟩ := store_vramAddr_twice hw hi lo
  dsimp only
  rw [ht, load_vramData]
  simp only [State.setPpu_ppu, State.setPpu_slot]
  refine ⟨trivial, hna, ?moves, fun h => ?buffered, fun h => ?direct⟩
  case moves => rw [Ppu.readData_vramAddr, Ppu.toNat_add_inc]
  case buffered =>
    rw [Ppu.readData_of_lt s.slot h]
    exact ⟨rfl, rfl⟩
  case direct =>
    rw [Ppu.readData_of_le s.slot h]
    exact ⟨rfl, rfl⟩

/-! ### OAM DMA -/

/-- Byte `i` of the copy of OAM DMA (R125): an ordinary load, put at the current OAM address. -/
def dmaByte (page : Byte) (s : State) (i : Nat) : State :=
  let r := load (wordOf page (BitVec.ofNat 8 i)) s
  r.2.setPpu (r.2.ppu.oamPut r.1)

/-- The first `n` bytes of the copy. -/
def dmaBytes (page : Byte) (n : Nat) (s : State) : State := (List.range n).foldl (dmaByte page) s

theorem dmaBytes_succ (page : Byte) (n : Nat) (s : State) :
    dmaBytes page (n + 1) s = dmaByte page (dmaBytes page n s) n := by
  rw [dmaBytes, List.range_succ, List.foldl_append]
  rfl

theorem oamDmaLoop_eq_foldl (page : Byte) (n k : Nat) (s : State) :
    oamDmaLoop page n (BitVec.ofNat 8 k) s = (List.range' k n).foldl (dmaByte page) s := by
  induction n generalizing k s with
  | zero => rfl
  | succ n ih => rw [oamDmaLoop, ← BitVec.ofNat_add, ih, List.range'_succ, List.foldl_cons, dmaByte]

/-- `OamDma(page)` copies 256 bytes and signals (R125). -/
theorem oamDma_eq (page : Byte) (s : State) :
    oamDma page s = (dmaBytes page 256 s).setPpu { (dmaBytes page 256 s).ppu with dmaDone := true } := by
  rw [oamDma, dmaBytes, List.range_eq_range', ← oamDmaLoop_eq_foldl]

/-- No PPU register moves the OAM address when read. -/
theorem ppuRegRead_oamAddr (i : BitVec 3) (slot : Option Slot) (u : Ppu) :
    (ppuRegRead i slot u).2.oamAddr = u.oamAddr := by
  by_cases h2 : i.toNat = 2
  · rw [ppuRegRead_of_status slot u h2]
    rfl
  by_cases h7 : i.toNat = 7
  · rw [ppuRegRead_of_data slot u h7, Ppu.readData]
    split <;> rfl
  rw [ppuRegRead_snd_eq slot u h2 h7]

theorem load_oamAddr (a : Addr) (s : State) : (load a s).2.ppu.oamAddr = s.ppu.oamAddr := by
  unfold load
  split
  case h_2 i _ => exact ppuRegRead_oamAddr i s.slot s.ppu
  all_goals rfl

/-- Each byte advances the OAM address by one. -/
theorem dmaBytes_oamAddr (page : Byte) (n : Nat) (s : State) :
    (dmaBytes page n s).ppu.oamAddr = s.ppu.oamAddr + BitVec.ofNat 8 n := by
  induction n with
  | zero => exact (BitVec.add_zero _).symm
  | succ n ih =>
    rw [dmaBytes_succ, BitVec.ofNat_add, ← BitVec.add_assoc, ← ih]
    exact congrArg (· + 1#8) (load_oamAddr _ _)

section
variable {page : Byte} (hp : page.toNat < 0x20)
include hp

/-- A page below 0x20 is one of the eight pages of work RAM, in a mirror (R43). -/
theorem load_ramPage (i : Byte) (s : State) :
    load (wordOf page i) s = (s.ram.read (page.toNat % 8 * 256 + i.toNat), s) := by
  have hi := i.isLt
  have ha := wordOf_toNat page i
  have hcell : (wordOf page i).toNat % 2048 = page.toNat % 8 * 256 + i.toNat := by omega
  rw [load_of_ram (region_ram (by omega)) s, hcell]

/-- From a page of work RAM, the copy changes OAM and the OAM address only. -/
theorem dmaBytes_ramPage_state (n : Nat) (s : State) :
    dmaBytes page n s = s.setPpu { s.ppu with
      oam := (dmaBytes page n s).ppu.oam, oamAddr := s.ppu.oamAddr + BitVec.ofNat 8 n } := by
  rw [← dmaBytes_oamAddr page]
  induction n with
  | zero => rfl
  | succ n ih =>
    rw [dmaBytes_succ, dmaByte, load_ramPage hp, ih]
    rfl

/-- From a page of work RAM, the bytes copied so far lie in OAM, each at its distance from the first OAM address. A
later byte goes to another cell, or (past 256) is the same byte again. -/
theorem dmaBytes_ramPage_oam {n : Nat} {i : Byte} (hi : i.toNat < n) (s : State) :
    (dmaBytes page n s).ppu.oam.read (s.ppu.oamAddr + i).toNat = s.ram.read (page.toNat % 8 * 256 + i.toNat) := by
  induction n with
  | zero => exact absurd hi (Nat.not_lt_zero _)
  | succ n ih =>
    have hram : (dmaBytes page n s).ram = s.ram := by rw [dmaBytes_ramPage_state hp]; rfl
    rw [dmaBytes_succ, dmaByte, load_ramPage hp, hram]
    dsimp only [State.setPpu_ppu, Ppu.oamPut]
    rw [dmaBytes_oamAddr]
    by_cases hn : i = BitVec.ofNat 8 n
    · rw [hn, Memory.read_write_same]
    · have hcell : (s.ppu.oamAddr + i).toNat ≠ (s.ppu.oamAddr + BitVec.ofNat 8 n).toNat :=
        fun h => hn ((BitVec.add_right_inj _).1 (BitVec.eq_of_toNat_eq h))
      have hne : i.toNat ≠ n := fun h => hn (by rw [← h, BitVec.ofNat_toNat, BitVec.setWidth_eq])
      rw [Memory.read_write_other _ _ hcell, ih (by omega)]

end

/-- Settles O53: the loop is a fold over the page's bytes, and 256 advances of the OAM address bring it round. -/
theorem oamDmaCopiesAPage : Obligations.OamDmaCopiesAPage := by
  unfold Obligations.OamDmaCopiesAPage
  intro page s
  have hround : s.ppu.oamAddr + BitVec.ofNat 8 256 = s.ppu.oamAddr := by
    rw [show BitVec.ofNat 8 256 = 0#8 by decide, BitVec.add_zero]
  have haddr := (dmaBytes_oamAddr page 256 s).trans hround
  refine ⟨?copy, ?addr, ?done, fun hp => ⟨fun i => ?bytes, ?frame⟩⟩
  case copy =>
    have hcopy := oamDma_eq page s
    generalize 256 = n at hcopy ⊢
    exact hcopy
  case addr =>
    rw [oamDma_eq]
    exact haddr
  case done =>
    rw [oamDma_eq]
    rfl
  case bytes =>
    rw [oamDma_eq]
    exact dmaBytes_ramPage_oam hp i.isLt s
  case frame =>
    rw [oamDma_eq, dmaBytes_ramPage_state hp, hround]
    rfl

/-! ### The PPU cycle -/

/-- The advance moves the position and nothing else. -/
theorem Ppu.advance_eq (u : Ppu) : u.advance = { u with scanline := u.advance.scanline, dot := u.advance.dot } := by
  unfold advance
  dsimp only
  split <;> rfl

/-- The position advances by one and wraps at the end of the frame (R128). -/
theorem framePosition_advance {u : Ppu} (h : u.wf = true) :
    framePosition u.advance = (framePosition u + 1) % 89342 := by
  obtain ⟨-, -, -, hline, hdot, -⟩ := (Ppu.wf_iff u).1 h
  simp only [framePosition, Ppu.advance, if_neg hline.ne, Nat.add_assoc]
  split_ifs with hend hlast <;> simp only [Config.linesPerFrame, Config.dotsPerLine] at *
  · rw [hend, ← Nat.add_one_mul, hlast]
  · rw [hend, ← Nat.add_one_mul, Nat.mod_eq_of_lt (by omega), Nat.add_zero]
  · rw [Nat.mod_eq_of_lt (by omega)]

/-- The vblank events leave the position alone. -/
theorem framePosition_tick (u : Ppu) : framePosition u.tick = framePosition u.advance := by
  unfold Ppu.tick
  dsimp only
  split_ifs <;> rfl

/-- A position of the frame is that of one scanline and dot. -/
theorem framePosition_eq_iff {u : Ppu} (h : u.dot < 341) (line : Nat) :
    framePosition u = line * 341 + 1 ↔ u.scanline = line ∧ u.dot = 1 := by
  simp only [framePosition, Config.dotsPerLine]
  omega

/-- With the request gated by `ctrl[7]`, vblank start adds that bit to the pending request (R129). -/
theorem Ppu.vblankStart_eq (u : Ppu) :
    u.vblankStart = { u with status := u.status ||| 0x80#8, nmiRequest := u.nmiRequest || u.ctrl.getLsbD 7 } := by
  unfold vblankStart
  cases u.ctrl.getLsbD 7 <;> simp [Config.nmiGate]

section
variable {u : Ppu}

theorem Ppu.tick_of_vblankStart (hline : u.advance.scanline = 241) (hdot : u.advance.dot = 1) :
    u.tick = { u with
      scanline := 241, dot := 1, status := u.status ||| 0x80#8, nmiRequest := u.nmiRequest || u.ctrl.getLsbD 7 } := by
  have ht : u.tick = u.advance.vblankStart := if_pos ⟨hline, hdot⟩
  rw [ht, vblankStart_eq, advance_eq, hline, hdot]

theorem Ppu.tick_of_vblankEnd (hline : u.advance.scanline = 261) (hdot : u.advance.dot = 1) :
    u.tick = { u with scanline := 261, dot := 1, status := u.status &&& 0x7F#8, newFrame := true } := by
  have ht : u.tick = u.advance.vblankEnd := by simp [tick, hline, hdot, Config.vblankSetLine, Config.vblankClearLine]
  rw [ht, vblankEnd, advance_eq, hline, hdot]

theorem Ppu.tick_of_no_event (hset : ¬ (u.advance.scanline = 241 ∧ u.advance.dot = 1))
    (hclear : ¬ (u.advance.scanline = 261 ∧ u.advance.dot = 1)) : u.tick = u.advance :=
  (if_neg hset).trans (if_neg hclear)

end

/-- Settles O54: a tick is an advance and the event of the position it arrives at. -/
theorem ppuTickAdvancesTheFrame : Obligations.PpuTickAdvancesTheFrame := by
  unfold Obligations.PpuTickAdvancesTheFrame
  intro u hu
  obtain ⟨-, -, -, -, hdot, -⟩ := (Ppu.wf_iff _).1 (Ppu.advance_wf hu)
  simp only [framePosition_tick, ne_eq, framePosition_eq_iff hdot]
  refine ⟨framePosition_advance hu, fun ⟨hl, hd⟩ => Ppu.tick_of_vblankStart hl hd,
    fun ⟨hl, hd⟩ => Ppu.tick_of_vblankEnd hl hd, fun hset hclear => ?_⟩
  rw [Ppu.tick_of_no_event hset hclear]
  exact u.advance_eq

end Sys2Proof.Machine


/-! Proofs for the family of spec/30_encoding.md: the decoder and the encoder undo each other, the opcode table against
the encoder, and the undefined opcodes. -/

namespace Sys2Proof.Machine

/-! ### Decoding what was encoded -/

/-- An instruction in format F3 (R140) decodes to what its entry makes of the word, low byte first (R141). -/
theorem decode_encodeAbs {op : Byte} {e : OpEntry} (h : opEntry op = some e) (hn : e.mode.operandBytes = 2)
    {i : Addr → Instr} (hb : ∀ b1 b2, e.build b1 b2 = i (wordOf b2 b1)) (w : Addr) (rest : List Byte) :
    decode (encodeAbs op w ++ rest) = .ok (i w) rest :=
  calc decode (encodeAbs op w ++ rest)
    _ = .ok (e.build (loByte w) (hiByte w)) rest := decode_of_entry2 h hn _ _ rest
    _ = .ok (i w) rest := by rw [hb, wordOf_hi_lo]

/-- Every instruction decodes from its encoding, by the format of its mode: F1, F2 or F3 (R140). -/
theorem decode_encode_append (i : Instr) (rest : List Byte) : decode (encode i ++ rest) = .ok i rest := by
  cases i with
  | adcImm _ | adcZp _ | adcZpX _ | adcIndX _ | adcIndY _ | sbcImm _ | sbcZp _ | sbcZpX _ | sbcIndX _
  | sbcIndY _ | andImm _ | andZp _ | andZpX _ | andIndX _ | andIndY _ | oraImm _ | oraZp _ | oraZpX _
  | oraIndX _ | oraIndY _ | eorImm _ | eorZp _ | eorZpX _ | eorIndX _ | eorIndY _ | bitZp _ | aslAcc | aslZp _
  | aslZpX _ | lsrAcc | lsrZp _ | lsrZpX _ | rolAcc | rolZp _ | rolZpX _ | rorAcc | rorZp _ | rorZpX _
  | cmpImm _ | cmpZp _ | cmpZpX _ | cmpIndX _ | cmpIndY _ | cpxImm _ | cpxZp _ | cpyImm _ | cpyZp _ | incZp _
  | incZpX _ | decZp _ | decZpX _ | inx | iny | dex | dey | ldaImm _ | ldaZp _ | ldaZpX _ | ldaIndX _
  | ldaIndY _ | ldxImm _ | ldxZp _ | ldxZpY _ | ldyImm _ | ldyZp _ | ldyZpX _ | staZp _ | staZpX _ | staIndX _
  | staIndY _ | stxZp _ | stxZpY _ | styZp _ | styZpX _ | bccRel _ | bcsRel _ | beqRel _ | bneRel _ | bmiRel _
  | bplRel _ | bvcRel _ | bvsRel _ | rts | brk | rti | pha | php | pla | plp | tax | tay | tsx | txa | txs | tya
  | clc | cld | cli | clv | sec | sed | sei | nop =>
    rfl
  | adcAbs _ | adcAbsX _ | adcAbsY _ | sbcAbs _ | sbcAbsX _ | sbcAbsY _ | andAbs _ | andAbsX _ | andAbsY _
  | oraAbs _ | oraAbsX _ | oraAbsY _ | eorAbs _ | eorAbsX _ | eorAbsY _ | bitAbs _ | aslAbs _ | aslAbsX _
  | lsrAbs _ | lsrAbsX _ | rolAbs _ | rolAbsX _ | rorAbs _ | rorAbsX _ | cmpAbs _ | cmpAbsX _ | cmpAbsY _
  | cpxAbs _ | cpyAbs _ | incAbs _ | incAbsX _ | decAbs _ | decAbsX _ | ldaAbs _ | ldaAbsX _ | ldaAbsY _
  | ldxAbs _ | ldxAbsY _ | ldyAbs _ | ldyAbsX _ | staAbs _ | staAbsX _ | staAbsY _ | stxAbs _ | styAbs _
  | jmpAbs _ | jmpInd _ | jsrAbs _ =>
    exact decode_encodeAbs rfl rfl (fun _ _ => rfl) _ rest

/-- Settles O1: the case analysis by format, well-formedness being no condition (assumption 15). -/
theorem decodeEncodeRoundTrip : Obligations.DecodeEncodeRoundTrip :=
  fun i rest _ => decode_encode_append i rest

/-! ### Encoding what was decoded -/

/-- Everything a decoding that answers an instruction can have done: it found an entry for the first byte, and built the
instruction from as many bytes after it as the entry's mode has. -/
theorem decode_ok {bytes : List Byte} {i : Instr} {rest : List Byte} (h : decode bytes = .ok i rest) :
    ∃ e b1 b2, opEntry e.opcode = some e ∧ i = e.build b1 b2 ∧
      bytes = e.opcode :: ([b1, b2].take e.mode.operandBytes ++ rest) := by
  unfold decode at h
  split at h
  · cases h
  · next op tl =>
    split at h
    · cases h
    · next e he =>
      obtain rfl := opEntry_opcode he
      split at h
      · next hn =>
        cases h
        exact ⟨e, 0#8, 0#8, he, rfl, by rw [hn]; rfl⟩
      · next b1 _ hn =>
        cases h
        exact ⟨e, b1, 0#8, he, rfl, by rw [hn]; rfl⟩
      · next b1 b2 _ hn =>
        cases h
        exact ⟨e, b1, b2, he, rfl, by rw [hn]; rfl⟩
      · cases h

/-- The bytes of an instruction with opcode `op`, by the number of its operand bytes (formats F1 to F3 of R140). -/
def formatBytes (op b1 b2 : Byte) : Nat → List Byte
  | 0 => [op]
  | 1 => [op, b1]
  | _ => encodeAbs op (wordOf b2 b1)

theorem formatBytes_eq (op b1 b2 : Byte) {n : Nat} (hn : n ≤ 2) : formatBytes op b1 b2 n = op :: [b1, b2].take n := by
  match n with
  | 0 | 1 => rfl
  | 2 => simp [formatBytes, encodeAbs]

/-- Every entry of the table builds instructions of its own mnemonic and mode, which encode to its opcode and the operand
bytes, in the format of the mode (R140 to R142). -/
theorem opcodeTable_builds : ∀ e ∈ opcodeTable, ∀ b1 b2,
    encode (e.build b1 b2) = formatBytes e.opcode b1 b2 e.mode.operandBytes ∧
      (e.build b1 b2).mnemonic = e.mnemonic ∧ (e.build b1 b2).form.mode = e.mode := by
  simp only [opcodeTable, List.forall_mem_append, opcodeRows0, opcodeRows1, opcodeRows2, opcodeRows3, opcodeRows4,
    opcodeRows5, opcodeRows6, opcodeRows7, opcodeRows8, opcodeRows9, opcodeRowsA, opcodeRowsB, opcodeRowsC,
    opcodeRowsD, opcodeRowsE, opcodeRowsF, List.forall_mem_cons, List.not_mem_nil, false_implies, implies_true,
    and_true]
  and_intros
  all_goals exact fun _ _ => ⟨rfl, rfl, rfl⟩

/-- The same of the entry found for a byte, with the operand bytes as a string. -/
theorem opEntry_builds {op : Byte} {e : OpEntry} (h : opEntry op = some e) (b1 b2 : Byte) :
    encode (e.build b1 b2) = e.opcode :: [b1, b2].take e.mode.operandBytes ∧
      (e.build b1 b2).mnemonic = e.mnemonic ∧ (e.build b1 b2).form.mode = e.mode := by
  rw [← formatBytes_eq _ _ _ (operandBytes_le e.mode)]
  exact opcodeTable_builds e (List.mem_of_find?_eq_some h) b1 b2

/-- Settles O2: what was decoded was built by a table entry, and encodes to that entry's bytes. -/
theorem decodedBytesAreTheEncoding : Obligations.DecodedBytesAreTheEncoding := by
  unfold Obligations.DecodedBytesAreTheEncoding
  intro bytes i rest h
  obtain ⟨e, b1, b2, he, rfl, rfl⟩ := decode_ok h
  obtain ⟨henc, -⟩ := opEntry_builds he b1 b2
  rw [henc]
  rfl

/-! ### The opcode table -/

/-- No byte has a base cost above 7 (R146). -/
theorem opcodesOfCost_eq_nil (n : Nat) : opcodesOfCost (n + 8) = [] := rfl

/-- A byte has the base cost of its entry and no other (R146). -/
theorem opEntry_cycles_iff {op : Byte} {e : OpEntry} (h : opEntry op = some e) (c : Nat) :
    e.cycles = c ↔ op ∈ opcodesOfCost c := by
  have hlow : ∀ e ∈ opcodeTable, ∀ c < 8, e.cycles = c ↔ e.opcode ∈ opcodesOfCost c := by decide +kernel
  obtain rfl := opEntry_opcode h
  obtain hc | hc := Nat.lt_or_ge c 8
  · exact hlow e (List.mem_of_find?_eq_some h) c hc
  · obtain ⟨n, rfl⟩ := Nat.exists_eq_add_of_le' hc
    have hcycles := (opEntry_cycles_bounds h).2
    rw [opcodesOfCost_eq_nil]
    exact iff_of_false (by omega) List.not_mem_nil

/-- The mnemonics that leave `PC` to their handler (R148). -/
theorem opcodeTable_trackPc_iff : ∀ e ∈ opcodeTable, e.trackPc = false ↔
    e.mnemonic ∈ [.bcc, .bcs, .beq, .bne, .bmi, .bpl, .bvc, .bvs, .jmp, .jsr, .rts, .rti, .brk] := by decide +kernel

/-- Settles O5: an instruction decodes from its encoding, so a table entry builds it, and that entry describes it. -/
theorem tableEntryOfEveryInstruction : Obligations.TableEntryOfEveryInstruction := by
  unfold Obligations.TableEntryOfEveryInstruction
  intro i
  obtain ⟨e, b1, b2, he, rfl, -⟩ := decode_ok (decode_encode_append i [])
  obtain ⟨henc, hmn, hmode⟩ := opEntry_builds he b1 b2
  refine ⟨e.opcode, _, e, henc, he, rfl, hmn.symm, hmode.symm, ?length, opEntry_cycles_iff he, ?trackPc⟩
  case length => rw [OpEntry.length, List.length_take_of_le (operandBytes_le e.mode)]
  case trackPc =>
    rw [hmn]
    exact opcodeTable_trackPc_iff e (List.mem_of_find?_eq_some he)

/-! ### Undefined opcodes -/

/-- The bytes without an entry are the ones R147 lists. -/
theorem opEntry_eq_none_iff (op : Byte) : opEntry op = none ↔ op ∈ undefinedOpcodes := by
  rw [← Option.isNone_iff_eq_none, ← Option.not_isSome, opEntry_isSome]
  simp [definedOpcode]

/-- The decoder refuses a byte by name when it has no entry, and only then: with an entry, it reads an instruction or
runs out of bytes. -/
theorem decode_eq_undefinedOpcode_iff (op : Byte) (rest : List Byte) :
    decode (op :: rest) = .undefinedOpcode op ↔ opEntry op = none := by
  refine ⟨fun h => ?_, fun h => decode_of_none h rest⟩
  cases he : opEntry op with
  | none => rfl
  | some e =>
    simp only [decode, he] at h
    split at h <;> cases h

/-- Settles O3: the refused bytes are those without an entry, which are the listed ones. -/
theorem undefinedOpcodesAreRejected : Obligations.UndefinedOpcodesAreRejected := by
  unfold Obligations.UndefinedOpcodesAreRejected
  exact ⟨rfl, by decide, fun op rest =>
    (decode_eq_undefinedOpcode_iff op rest).trans (opEntry_eq_none_iff op)⟩

/-! ### Words of the opcode map -/

/-- Settles O4: ten evaluations of the decoder. -/
theorem specWordsDecode : Obligations.SpecWordsDecode := by
  unfold Obligations.SpecWordsDecode
  decide

end Sys2Proof.Machine


/-! Proofs for the family of spec/40_addressing_modes.md: page zero and indexed addresses as numbers, the word load of a
pointer in page zero, and the effective addresses. -/

namespace Sys2Proof.Machine

/-! ### Addresses as numbers -/

/-- A page zero address is the operand byte (R163). -/
@[simp] theorem zpAddr_toNat (b : Byte) : (zpAddr b).toNat = b.toNat := by
  rw [zpAddr, wordOf_toNat]
  exact Nat.zero_add b.toNat

/-- Indexing an operand byte wraps within page zero (R164, R165). -/
theorem zpAddr_add_toNat (b r : Byte) : (zpAddr (b + r)).toNat = (b.toNat + r.toNat) % 256 := by
  rw [zpAddr_toNat, BitVec.toNat_add]

/-- Indexing a word wraps modulo 65536 (R167, R168, R171). -/
theorem indexed_toNat (w : Addr) (r : Byte) : (indexed w r).toNat = (w.toNat + r.toNat) % 65536 := by
  rw [indexed, BitVec.toNat_add, BitVec.toNat_setWidth_of_le (by decide)]

/-! ### Pointers in page zero -/

/-- Below 0x0800 no mirror is involved: a load answers the work RAM cell of its address (R43). -/
theorem load_of_toNat_lt {a : Addr} (h : a.toNat < 2048) (s : State) : load a s = (s.ram.read a.toNat, s) := by
  rw [load_of_ram (region_ram (by omega)), Nat.mod_eq_of_lt h]

/-- The two bytes of a pointer in page zero are work RAM cells, the higher one up to 0x0100: the word load reads them and
does not wrap within the page (R170, R171). -/
theorem loadWord_zpAddr (b : Byte) (s : State) :
    loadWord (zpAddr b) s = (wordOf (s.ram.read (b.toNat + 1)) (s.ram.read b.toNat), s) := by
  have hb := b.isLt
  have hlo : (zpAddr b).toNat = b.toNat := zpAddr_toNat b
  have hhi : (zpAddr b + 1#16).toNat = b.toNat + 1 := by bv_omega
  rw [loadWord, load_of_toNat_lt (by omega), load_of_toNat_lt (by omega), hlo, hhi]

/-- Resolving a form changes nothing: its pointer loads, if any, are from work RAM. -/
theorem resolve_snd (r : Ref) (s : State) : (resolve r s).2 = s := by
  cases r with
  | indirectX b => exact congrArg Prod.snd (loadWord_zpAddr (b + s.x) s)
  | indirectY b => exact congrArg Prod.snd (loadWord_zpAddr b s)
  | _ => rfl

/-- The operand of a memory form is the one load at its effective address (R160). -/
theorem readOperand_memory (r : Ref) (s : State) : readOperand (.memory r) s = load (resolve r s).1 s := by
  rw [readOperand, resolve_snd]

/-! ### Effective addresses -/

/-- Settles O41: the forms without a pointer by their sums, those with one by the word load in page zero. -/
theorem effectiveAddresses : Obligations.EffectiveAddresses := by
  unfold Obligations.EffectiveAddresses
  intro b w s
  refine ⟨zpAddr_toNat b, zpAddr_add_toNat b s.x, zpAddr_add_toNat b s.y, rfl, indexed_toNat w s.x,
    indexed_toNat w s.y, ?indirectX, ?indirectY, fun ref => ⟨resolve_snd ref s, readOperand_memory ref s⟩, rfl⟩
  case indirectX => rw [resolve, loadWord_zpAddr, BitVec.toNat_add]
  case indirectY => rw [resolve, loadWord_zpAddr, indexed_toNat]

end Sys2Proof.Machine


/-! Proofs for the family of spec/41_arithmetic.md: an accumulating instruction by its computation, SBC by numbers and
flags, and what the Decimal flag takes part in. -/

namespace Sys2Proof.Machine

/-! ### Accumulating instructions -/

/-- An instruction with an accumulating mnemonic names an operand and accumulates it, row by row of the opcode table. -/
theorem Accumulates.exec_eq {i : Instr} {f : Byte → Byte → Byte → Byte × Byte} (hm : Accumulates i.mnemonic f) :
    ∃ o, i.form.operand = some o ∧ ∀ s, exec i s = .next (accumulate f o s) := by
  cases i <;> cases hm
  all_goals exact ⟨_, rfl, fun _ => rfl⟩

/-- What an accumulating instruction answers, over the operand it reads and the state after its loads. -/
theorem Accumulates.readsOperand {i : Instr} {f : Byte → Byte → Byte → Byte × Byte} (hm : Accumulates i.mnemonic f)
    (s : State) :
    ReadsOperand i s fun m u t => t = (u.setA (f s.p s.a m).1).setP (f s.p s.a m).2 := by
  obtain ⟨o, ho, he⟩ := hm.exec_eq
  exact ⟨o, _, ho, he s, accumulate_eq f o s⟩

theorem ReadsOperand.imp {i : Instr} {s : State} {P Q : Byte → State → State → Prop} (h : ReadsOperand i s P)
    (hPQ : ∀ m u t, P m u t → Q m u t) : ReadsOperand i s Q := by
  obtain ⟨o, t, ho, he, hp⟩ := h
  exact ⟨o, t, ho, he, hPQ _ _ _ hp⟩

/-! ### ADC -/

/-- Settles O18: the accumulating instruction with ADC's computation. -/
theorem adcAddsWithCarry : Obligations.AdcAddsWithCarry := by
  unfold Obligations.AdcAddsWithCarry
  refine ⟨rfl, fun i s hi => ?_⟩
  have hm : Accumulates i.mnemonic adcFlags := hi ▸ .adc
  exact (hm.readsOperand s).imp fun m u t ht => ⟨_, _, ht, adcFlags_spec s.p s.a m⟩

/-! ### SBC -/

/-- The borrow of a status as a number: the carry's complement (R181). An integer, as the differences it enters. -/
def borrowInt (p : Byte) : Int := if getFlag .carry p then 0 else 1

theorem carryNat_add_borrowInt (p : Byte) : (carryNat p : Int) + borrowInt p = 1 := by
  unfold carryNat borrowInt
  split <;> rfl

/-- The operand that SBC adds, as a number (R181). -/
theorem complement_toNat (m : Byte) : (m ^^^ 0xFF#8).toNat = 255 - m.toNat := by
  have h : m ^^^ 0xFF#8 = ~~~m := BitVec.xor_allOnes
  rw [h, BitVec.toNat_not]

/-- The sign of a byte is its comparison with 128. -/
theorem getLsbD_seven (x : Byte) : x.getLsbD 7 = decide (128 ≤ x.toNat) := BitVec.msb_eq_decide x

/-- SBC by numbers and flags (R181). -/
theorem sbcFlags_spec (p a m : Byte) :
    ((sbcFlags p a m).1.toNat : Int) = (a.toNat + 512 - m.toNat - borrowInt p) % 256 ∧
    getFlag .carry (sbcFlags p a m).2 = decide (m.toNat + borrowInt p ≤ a.toNat) ∧
    getFlag .overflow (sbcFlags p a m).2 =
      decide (a.toInt - m.toInt - borrowInt p < -128 ∨ 127 < a.toInt - m.toInt - borrowInt p) ∧
    getFlag .zero (sbcFlags p a m).2 = ((sbcFlags p a m).1 == 0#8) ∧
    getFlag .negative (sbcFlags p a m).2 = (sbcFlags p a m).1.getLsbD 7 ∧
    ∀ f ∈ [Flag.interruptDisable, .decimal, .breakBit, .unused], getFlag f (sbcFlags p a m).2 = getFlag f p := by
  obtain ⟨hr, hc, hv, hz, hn, hf⟩ := adcFlags_spec p a (m ^^^ 0xFF#8)
  rw [complement_toNat] at hr hc
  have hb := carryNat_add_borrowInt p
  have hc1 := carryNat_le_one p
  have ha := a.isLt
  have hm := m.isLt
  refine ⟨?result, ?carry, ?overflow, hz, hn, hf⟩
  case result =>
    rw [sbcFlags, hr]
    omega
  case carry =>
    rw [sbcFlags, hc, decide_eq_decide]
    omega
  case overflow =>
    rw [sbcFlags, hv, Bool.eq_iff_iff]
    simp only [getLsbD_seven, complement_toNat, hr, BitVec.toInt_eq_toNat_cond, Bool.and_eq_true, beq_iff_eq,
      bne_iff_ne, ne_eq, decide_eq_decide, decide_eq_true_eq]
    split_ifs <;> omega

/-- Settles O19: the accumulating instruction with SBC's computation. -/
theorem sbcSubtractsWithBorrow : Obligations.SbcSubtractsWithBorrow := by
  unfold Obligations.SbcSubtractsWithBorrow
  refine ⟨rfl, fun i s hi => ?_⟩
  have hm : Accumulates i.mnemonic sbcFlags := hi ▸ .sbc
  exact (hm.readsOperand s).imp fun m u t ht => ⟨_, _, ht, sbcFlags_spec s.p s.a m⟩

/-! ### The Decimal flag -/

/-- A load does not see the status. -/
theorem load_setP (a : Addr) (s : State) (q : Byte) : load a (s.setP q) = ((load a s).1, (load a s).2.setP q) := by
  unfold load
  cases region a <;> rfl

/-- An effective address does not depend on the status. -/
theorem resolve_fst_setP (r : Ref) (s : State) (q : Byte) : (resolve r (s.setP q)).1 = (resolve r s).1 := by
  cases r with
  | indirectX b | indirectY b => simp [resolve, loadWord_zpAddr]
  | _ => rfl

/-- Reading an operand does not see the status. -/
theorem readOperand_setP (o : Operand) (s : State) (q : Byte) :
    readOperand o (s.setP q) = ((readOperand o s).1, (readOperand o s).2.setP q) := by
  cases o with
  | immediate v => rfl
  | memory r => rw [readOperand_memory, readOperand_memory, resolve_fst_setP, load_setP]

/-- Accumulating from another status: only the computation sees it. -/
theorem accumulate_setP (f : Byte → Byte → Byte → Byte × Byte) (o : Operand) (s : State) (q : Byte) :
    accumulate f o (s.setP q) =
      ((s.setPpu (readOperand o s).2.ppu).setA (f q s.a (readOperand o s).1).1).setP
        (f q s.a (readOperand o s).1).2 := by
  rw [accumulate_eq, readOperand_setP]
  rfl

/-- The carry is another flag than Decimal. -/
theorem carryNat_setDecimal (p : Byte) : carryNat (setFlag .decimal p) = carryNat p := by
  simp [carryNat, getFlag_setFlag]

/-- ADC carries a Decimal flag along, and its result does not depend on it (R182). -/
theorem adcFlags_setDecimal (p a m : Byte) :
    adcFlags (setFlag .decimal p) a m = ((adcFlags p a m).1, setFlag .decimal (adcFlags p a m).2) := by
  refine Prod.ext ?result (eq_of_getFlag_eq fun g => ?status)
  case result => simp only [adcFlags, carryNat_setDecimal]
  case status =>
    simp only [adcFlags, carryNat_setDecimal, getFlag_setZN, getFlag_putFlag, getFlag_setFlag]
    cases g <;> simp

/-- A computation that carries the Decimal flag along makes the whole instruction do so. -/
theorem Accumulates.exec_setDecimal {i : Instr} {f : Byte → Byte → Byte → Byte × Byte} (hm : Accumulates i.mnemonic f)
    (hf : ∀ p a m, f (setFlag .decimal p) a m = ((f p a m).1, setFlag .decimal (f p a m).2)) {s t : State}
    (h : exec i s = .next t) :
    exec i (s.setP (setFlag .decimal s.p)) = .next (t.setP (setFlag .decimal t.p)) := by
  obtain ⟨o, -, he⟩ := hm.exec_eq
  obtain rfl : accumulate f o s = t := by simpa [he] using h
  rw [he, accumulate_setP, hf, accumulate_eq]
  rfl

/-- Settles O20: ADC's computation carries the flag along, and SBC's is ADC's of another operand. -/
theorem decimalFlagDoesNotChangeArithmetic : Obligations.DecimalFlagDoesNotChangeArithmetic := by
  unfold Obligations.DecimalFlagDoesNotChangeArithmetic
  rintro i s t (hi | hi) h
  · have hm : Accumulates i.mnemonic adcFlags := hi ▸ .adc
    exact hm.exec_setDecimal adcFlags_setDecimal h
  · have hm : Accumulates i.mnemonic sbcFlags := hi ▸ .sbc
    exact hm.exec_setDecimal (fun p a m => adcFlags_setDecimal p a (m ^^^ 0xFF#8)) h

end Sys2Proof.Machine


/-! Proofs for the family of spec/42_logical.md: an instruction that tests its operand by its computation, and what
`SetZN` and BIT leave of each flag. -/

namespace Sys2Proof.Machine

/-! ### The logical instructions -/

/-- `setZN` is the `SetZN` of R17. -/
theorem setsZN_setZN (v p : Byte) : SetsZN v p (setZN v p) := by
  refine ⟨?zero, ?negative, fun f hz hn => ?other⟩
  case zero => simp [getFlag_setZN]
  case negative => simp [getFlag_setZN]
  case other => rw [getFlag_setZN, if_neg hn, if_neg hz]

/-- An accumulating instruction whose computation is a result from `A` and the operand, and the `SetZN` of it. -/
theorem Accumulates.readsOperand_setsZN {i : Instr} {f : Byte → Byte → Byte → Byte × Byte} {op : Byte → Byte → Byte}
    (hm : Accumulates i.mnemonic f) (hf : ∀ p a m, f p a m = (op a m, setZN (op a m) p)) (s : State) :
    ReadsOperand i s fun m u t => ∃ q, t = (u.setA (op s.a m)).setP q ∧ SetsZN (op s.a m) s.p q := by
  refine (hm.readsOperand s).imp fun m u t ht => ⟨setZN (op s.a m) s.p, ?_, setsZN_setZN _ _⟩
  rw [ht, hf]

/-- Settles O21: three accumulating instructions, each with its bitwise operation. -/
theorem logicalInstructions : Obligations.LogicalInstructions := by
  unfold Obligations.LogicalInstructions
  refine ⟨rfl, rfl, rfl, fun i s => ⟨fun hi => ?and, fun hi => ?ora, fun hi => ?eor⟩⟩
  case and =>
    have hm : Accumulates i.mnemonic andFlags := hi ▸ .and
    exact hm.readsOperand_setsZN (fun _ _ _ => rfl) s
  case ora =>
    have hm : Accumulates i.mnemonic oraFlags := hi ▸ .ora
    exact hm.readsOperand_setsZN (fun _ _ _ => rfl) s
  case eor =>
    have hm : Accumulates i.mnemonic eorFlags := hi ▸ .eor
    exact hm.readsOperand_setsZN (fun _ _ _ => rfl) s

/-! ### Instructions that test their operand -/

/-- An instruction with a testing mnemonic names an operand and tests it, row by row of the opcode table. -/
theorem Tests.exec_eq {i : Instr} {r : State → Byte} {f : Byte → Byte → Byte → Byte} (hm : Tests i.mnemonic r f) :
    ∃ o, i.form.operand = some o ∧ ∀ s, exec i s = .next (testOperand f (r s) o s) := by
  cases i <;> cases hm
  all_goals exact ⟨_, rfl, fun _ => rfl⟩

/-- What a testing instruction answers, over the operand it reads and the state after its loads: only the status is
written. -/
theorem Tests.readsOperand {i : Instr} {r : State → Byte} {f : Byte → Byte → Byte → Byte} (hm : Tests i.mnemonic r f)
    (s : State) : ReadsOperand i s fun m u t => t = u.setP (f s.p (r s) m) := by
  obtain ⟨o, ho, he⟩ := hm.exec_eq
  exact ⟨o, _, ho, he s, testOperand_eq f (r s) o s⟩

/-! ### BIT -/

/-- BIT's status by flag (R188). -/
theorem getFlag_bitFlags (f : Flag) (p a m : Byte) :
    getFlag f (bitFlags p a m) =
      if f = .overflow then m.getLsbD 6 else if f = .negative then m.getLsbD 7 else
        if f = .zero then a &&& m == 0#8 else getFlag f p := by
  rw [bitFlags, getFlag_putFlag, getFlag_putFlag, getFlag_putFlag]

/-- BIT's status by the flags it writes and the flags it keeps (R188). -/
theorem bitFlags_spec (p a m : Byte) :
    getFlag .zero (bitFlags p a m) = (a &&& m == 0#8) ∧ getFlag .negative (bitFlags p a m) = m.getLsbD 7 ∧
    getFlag .overflow (bitFlags p a m) = m.getLsbD 6 ∧
    ∀ f, f ≠ .zero → f ≠ .negative → f ≠ .overflow → getFlag f (bitFlags p a m) = getFlag f p := by
  refine ⟨?zero, ?negative, ?overflow, fun f hz hn hv => ?other⟩
  case zero => simp [getFlag_bitFlags]
  case negative => simp [getFlag_bitFlags]
  case overflow => simp [getFlag_bitFlags]
  case other => rw [getFlag_bitFlags, if_neg hv, if_neg hn, if_neg hz]

/-- Settles O22: the testing instruction with BIT's computation. -/
theorem bitTestsMemory : Obligations.BitTestsMemory := by
  unfold Obligations.BitTestsMemory
  refine ⟨rfl, fun i s hi => ?_⟩
  have hm : Tests i.mnemonic State.a bitFlags := hi ▸ .bit
  exact (hm.readsOperand s).imp fun m u t ht => ⟨_, ht, bitFlags_spec s.p s.a m⟩

end Sys2Proof.Machine


/-! Proofs for the family of spec/43_shifts_rotates.md: an instruction that replaces its operand by its computation, the
carry with `SetZN`, and the four computations by numbers. -/

namespace Sys2Proof.Machine

/-! ### Instructions that replace their operand -/

/-- An instruction with a replacing mnemonic modifies `A` or the memory cell its form names, row by row of the opcode
table. -/
theorem Modifies.exec_eq {i : Instr} {f : Byte → Byte → Byte × Byte} (hm : Modifies i.mnemonic f) :
    (i.form = .accumulator ∧ ∀ s, exec i s = .next (modifyAccumulator f s)) ∨
      ∃ ref, i.form = .memory ref ∧ ∀ s, exec i s = .next (modifyMemory f ref s) := by
  cases i <;> rcases hm with ⟨⟨⟩⟩ | ⟨⟩ | ⟨⟩
  case aslAcc | lsrAcc | rolAcc | rorAcc => exact .inl ⟨rfl, fun _ => rfl⟩
  all_goals exact .inr ⟨_, rfl, fun _ => rfl⟩

/-- What a replacing instruction relates to its old operand: what its computation gives for every byte. -/
theorem Modifies.modifiesOperand {i : Instr} {f : Byte → Byte → Byte × Byte} (hm : Modifies i.mnemonic f) (s : State)
    {P : Byte → Byte → Byte → Prop} (hP : ∀ m, P m (f s.p m).1 (f s.p m).2) : ModifiesOperand i s P := by
  rcases hm.exec_eq with ⟨hφ, he⟩ | ⟨ref, hφ, he⟩
  · rw [ModifiesOperand, hφ]
    exact ⟨_, _, hP s.a, he s⟩
  · rw [ModifiesOperand, hφ]
    exact ⟨_, _, hP _, (he s).trans (congrArg _ (modifyMemory_eq f ref s))⟩

/-! ### The carry and `SetZN` -/

/-- The status of a shift: the carry written first, then `SetZN`. -/
theorem setsCZN_setZN_putFlag (c : Bool) (v p : Byte) : SetsCZN c v p (setZN v (putFlag .carry c p)) := by
  refine ⟨?carry, ?zero, ?negative, fun f hc hz hn => ?other⟩
  case carry => simp [getFlag_setZN, getFlag_putFlag]
  case zero => simp [getFlag_setZN]
  case negative => simp [getFlag_setZN]
  case other => rw [getFlag_setZN, if_neg hn, if_neg hz, getFlag_putFlag, if_neg hc]

/-! ### The results as numbers -/

theorem toNat_shiftLeft_one (m : Byte) : (m <<< 1).toNat = 2 * m.toNat % 256 := by
  rw [BitVec.toNat_shiftLeft, Nat.shiftLeft_eq]
  omega

theorem toNat_ushiftRight_one (m : Byte) : (m >>> 1).toNat = m.toNat / 2 := by
  rw [BitVec.toNat_ushiftRight, Nat.shiftRight_eq_div_pow]

/-- A shift to the left leaves bit 0 free. -/
theorem shiftLeft_one_and_bit_zero (m : Byte) : m <<< 1 &&& 1#8 = 0#8 := by
  apply BitVec.eq_of_toNat_eq
  rw [toNat_and_of_bit _ 0 rfl, toNat_shiftLeft_one, BitVec.toNat_ofNat]
  omega

/-- A shift to the right leaves bit 7 free. -/
theorem ushiftRight_one_and_bit_seven (m : Byte) : m >>> 1 &&& 0x80#8 = 0#8 := by
  apply BitVec.eq_of_toNat_eq
  rw [toNat_and_of_bit _ 7 rfl, toNat_ushiftRight_one, BitVec.toNat_ofNat]
  omega

/-- ROL's result (R192): the carry is added at the bit that the shift leaves free. -/
theorem rolFlags_toNat (p m : Byte) :
    (rolFlags p m).1.toNat = (2 * m.toNat + if getFlag .carry p then 1 else 0) % 256 := by
  dsimp only [rolFlags]
  split
  · rw [← BitVec.add_eq_or_of_and_eq_zero _ _ (shiftLeft_one_and_bit_zero m), BitVec.toNat_add, toNat_shiftLeft_one,
      BitVec.toNat_ofNat]
    omega
  · rw [BitVec.or_zero, toNat_shiftLeft_one, Nat.add_zero]

/-- ROR's result (R193): the carry is added at the bit that the shift leaves free. -/
theorem rorFlags_toNat (p m : Byte) :
    (rorFlags p m).1.toNat = m.toNat / 2 + if getFlag .carry p then 128 else 0 := by
  dsimp only [rorFlags]
  split
  · rw [← BitVec.add_eq_or_of_and_eq_zero _ _ (ushiftRight_one_and_bit_seven m), BitVec.toNat_add,
      toNat_ushiftRight_one, BitVec.toNat_ofNat]
    omega
  · rw [BitVec.or_zero, toNat_ushiftRight_one, Nat.add_zero]

/-! ### The statement -/

/-- Settles O23: the instruction that replaces its operand, with each computation's number and status. -/
theorem shiftAndRotateInstructions : Obligations.ShiftAndRotateInstructions := by
  unfold Obligations.ShiftAndRotateInstructions
  refine ⟨rfl, rfl, rfl, rfl, fun i s => ⟨fun hi => ?asl, fun hi => ?lsr, fun hi => ?rol, fun hi => ?ror⟩⟩
  case asl =>
    have hm : Modifies i.mnemonic aslFlags := hi ▸ .shift .asl
    exact hm.modifiesOperand s fun m => ⟨toNat_shiftLeft_one m, setsCZN_setZN_putFlag _ _ _⟩
  case lsr =>
    have hm : Modifies i.mnemonic lsrFlags := hi ▸ .shift .lsr
    exact hm.modifiesOperand s fun m => ⟨toNat_ushiftRight_one m, setsCZN_setZN_putFlag _ _ _⟩
  case rol =>
    have hm : Modifies i.mnemonic rolFlags := hi ▸ .shift .rol
    exact hm.modifiesOperand s fun m => ⟨rolFlags_toNat s.p m, setsCZN_setZN_putFlag _ _ _⟩
  case ror =>
    have hm : Modifies i.mnemonic rorFlags := hi ▸ .shift .ror
    exact hm.modifiesOperand s fun m => ⟨rorFlags_toNat s.p m, setsCZN_setZN_putFlag _ _ _⟩

end Sys2Proof.Machine


/-! Proofs for the family of spec/44_compare.md: the status of `Compare(r, M)` by flag, and the three instructions as the
testing instruction with that computation. -/

namespace Sys2Proof.Machine

/-- The status of a compare (R198): the shifts' status of the difference, which is 0 exactly when register and operand
are equal. -/
theorem compareFlags_spec (p r m : Byte) :
    getFlag .carry (compareFlags p r m) = decide (m.toNat ≤ r.toNat) ∧
    getFlag .zero (compareFlags p r m) = (r == m) ∧
    getFlag .negative (compareFlags p r m) = (r - m).getLsbD 7 ∧
    ∀ f, f ≠ .carry → f ≠ .zero → f ≠ .negative → getFlag f (compareFlags p r m) = getFlag f p := by
  have hz : (r - m == 0#8) = (r == m) := by
    rw [Bool.eq_iff_iff, beq_iff_eq, beq_iff_eq]
    exact sub_eq_zero
  rw [← hz]
  exact setsCZN_setZN_putFlag _ _ _

/-- What a comparing instruction answers: only the status is written, by the comparison of its register with its
operand. -/
theorem Tests.readsOperand_compareFlags {i : Instr} {r : State → Byte} (hm : Tests i.mnemonic r compareFlags)
    (s : State) :
    ReadsOperand i s fun m u t =>
      ∃ q, t = u.setP q ∧ getFlag .carry q = decide (m.toNat ≤ (r s).toNat) ∧ getFlag .zero q = (r s == m) ∧
        getFlag .negative q = (r s - m).getLsbD 7 ∧
        ∀ f, f ≠ .carry → f ≠ .zero → f ≠ .negative → getFlag f q = getFlag f s.p :=
  (hm.readsOperand s).imp fun m _ _ ht => ⟨_, ht, compareFlags_spec s.p (r s) m⟩

/-- Settles O24: the testing instruction with `Compare`'s computation, for each of the three registers. -/
theorem compareInstructions : Obligations.CompareInstructions := by
  unfold Obligations.CompareInstructions
  refine ⟨rfl, rfl, rfl, fun i s r hi => ?_⟩
  rcases hi with ⟨hi, rfl⟩ | ⟨hi, rfl⟩ | ⟨hi, rfl⟩
  case inl =>
    have hm : Tests i.mnemonic State.a compareFlags := hi ▸ .cmp
    exact hm.readsOperand_compareFlags s
  case inr.inl =>
    have hm : Tests i.mnemonic State.x compareFlags := hi ▸ .cpx
    exact hm.readsOperand_compareFlags s
  case inr.inr =>
    have hm : Tests i.mnemonic State.y compareFlags := hi ▸ .cpy
    exact hm.readsOperand_compareFlags s

end Sys2Proof.Machine


/-! Proofs for the family of spec/45_inc_dec.md: INC and DEC as instructions that replace their operand, with their
results by numbers, and the four register forms. -/

namespace Sys2Proof.Machine

/-! ### INC and DEC -/

/-- INC's result and status (R200): the carry takes no part. -/
theorem incFlags_spec (p m : Byte) :
    (incFlags p m).1.toNat = (m.toNat + 1) % 256 ∧ SetsZN (incFlags p m).1 p (incFlags p m).2 :=
  ⟨BitVec.toNat_add m 1#8, setsZN_setZN _ _⟩

/-- DEC's result and status (R201): one less modulo 256 is 255 more. -/
theorem decFlags_spec (p m : Byte) :
    (decFlags p m).1.toNat = (m.toNat + 255) % 256 ∧ SetsZN (decFlags p m).1 p (decFlags p m).2 := by
  refine ⟨?result, setsZN_setZN _ _⟩
  case result => exact (BitVec.toNat_sub m 1#8).trans (congrArg (· % 256) (Nat.add_comm 255 m.toNat))

/-! ### The statement -/

/-- Settles O25: the instruction that replaces its operand with each memory form's computation; a register form is its
new value and the `SetZN` of it. -/
theorem incrementInstructions : Obligations.IncrementInstructions := by
  unfold Obligations.IncrementInstructions
  refine ⟨rfl, rfl, fun i s => ⟨fun hi => ?inc, fun hi => ?dec⟩, fun s => ?registers⟩
  case inc =>
    have hm : Modifies i.mnemonic incFlags := hi ▸ .inc
    exact hm.modifiesOperand s (incFlags_spec s.p)
  case dec =>
    have hm : Modifies i.mnemonic decFlags := hi ▸ .dec
    exact hm.modifiesOperand s (decFlags_spec s.p)
  case registers =>
    exact ⟨setZN (s.x + 1#8) s.p, setZN (s.y + 1#8) s.p, setZN (s.x - 1#8) s.p, setZN (s.y - 1#8) s.p,
      rfl, setsZN_setZN _ _, rfl, setsZN_setZN _ _, rfl, setsZN_setZN _ _, rfl, setsZN_setZN _ _⟩

end Sys2Proof.Machine


/-! Proofs for the family of spec/46_load_store.md: the loads and the stores, each by the shared operation of its
mnemonic. -/

namespace Sys2Proof.Machine

/-! ### Loads -/

/-- LDX in each of its modes loads the operand of its form, row by row of the opcode table. -/
theorem exec_ldx {i : Instr} (hi : i.mnemonic = .ldx) :
    ∃ o, i.form.operand = some o ∧ ∀ s, exec i s = .next (loadX o s) := by
  cases i <;> cases hi
  all_goals exact ⟨_, rfl, fun _ => rfl⟩

/-- LDY in each of its modes loads the operand of its form, row by row of the opcode table. -/
theorem exec_ldy {i : Instr} (hi : i.mnemonic = .ldy) :
    ∃ o, i.form.operand = some o ∧ ∀ s, exec i s = .next (loadY o s) := by
  cases i <;> cases hi
  all_goals exact ⟨_, rfl, fun _ => rfl⟩

/-- Settles O26: LDA accumulates without the old `A`; LDX and LDY by the closed forms of their loads. -/
theorem loadInstructions : Obligations.LoadInstructions := by
  unfold Obligations.LoadInstructions
  refine ⟨rfl, rfl, rfl, fun i s => ⟨fun hi => ?lda, fun hi => ?ldx, fun hi => ?ldy⟩⟩
  case lda =>
    have hm : Accumulates i.mnemonic ldaFlags := hi ▸ .lda
    exact hm.readsOperand_setsZN (op := fun _ m => m) (fun _ _ _ => rfl) s
  case ldx =>
    obtain ⟨o, ho, he⟩ := exec_ldx hi
    exact ⟨o, _, ho, he s, _, loadX_eq o s, setsZN_setZN _ _⟩
  case ldy =>
    obtain ⟨o, ho, he⟩ := exec_ldy hi
    exact ⟨o, _, ho, he s, _, loadY_eq o s, setsZN_setZN _ _⟩

/-! ### Stores -/

/-- An instruction with a storing mnemonic stores its register at the cell its form names, row by row of the opcode
table. -/
theorem Stores.exec_eq {i : Instr} {r : State → Byte} (hm : Stores i.mnemonic r) :
    ∃ ref, i.form = .memory ref ∧ ∀ s, exec i s = .next (storeOperand ref (r s) s) := by
  cases i <;> cases hm
  all_goals exact ⟨_, rfl, fun _ => rfl⟩

/-- Settles O27: the storing instruction of each register, in the closed form of its store, which leaves the registers
alone. -/
theorem storeInstructions : Obligations.StoreInstructions := by
  unfold Obligations.StoreInstructions
  refine ⟨rfl, rfl, rfl, fun i s v hi => ?_⟩
  obtain ⟨r, hm, rfl⟩ : ∃ r, Stores i.mnemonic r ∧ v = r s := by
    rcases hi with ⟨hi, hv⟩ | ⟨hi, hv⟩ | ⟨hi, hv⟩
    · exact ⟨_, hi ▸ .sta, hv⟩
    · exact ⟨_, hi ▸ .stx, hv⟩
    · exact ⟨_, hi ▸ .sty, hv⟩
  obtain ⟨ref, hφ, he⟩ := hm.exec_eq
  refine ⟨ref, _, hφ, he s, storeOperand_eq ref (r s) s, ?_⟩
  simp [storeOperand_eq]

end Sys2Proof.Machine


/-! Proofs for the family of spec/47_branches.md: a branch by its condition, and its target by numbers. -/

namespace Sys2Proof.Machine

/-- An instruction with a branch condition is a relative branch on it, row by row of the opcode table. -/
theorem exec_of_branchCondition {i : Instr} {s : State} {c : Bool} (h : branchCondition i.mnemonic s.p = some c) :
    ∃ d, i.form = .relative d ∧ exec i s = .next (branch c d s) := by
  cases i <;> cases h
  all_goals exact ⟨_, rfl, rfl⟩

/-- Where a branch goes, as a number (R173, R215): the displacement is signed, the address wraps modulo 65536. -/
theorem branch_target_toNat (c : Bool) (d : Byte) (pc : Addr) :
    ((if c then relativeTarget d pc else pc + 1#16).toNat : Int) =
      (pc.toNat + 1 + if c then d.toInt else 0) % 65536 := by
  have hd : (d.signExtend 16).toNat = (d.toInt % 65536).toNat := BitVec.toNat_ofInt d.toInt
  cases c with
  | false =>
    simp only [Bool.false_eq_true, if_false, BitVec.toNat_add, BitVec.toNat_ofNat]
    omega
  | true =>
    simp only [if_true, relativeTarget, BitVec.toNat_add, BitVec.toNat_ofNat, hd]
    omega

/-- Settles O28: a branch writes `PC` alone, with the target of its condition. -/
theorem branchInstructions : Obligations.BranchInstructions := by
  unfold Obligations.BranchInstructions
  refine ⟨rfl, fun i s c h => ?_⟩
  obtain ⟨d, hφ, he⟩ := exec_of_branchCondition h
  exact ⟨d, _, hφ, he, branch_target_toNat c d s.pc⟩

end Sys2Proof.Machine


/-! Proofs for the family of spec/48_jumps_interrupt_instructions.md: the jumps, JSR and BRK by the stack cells they
write, and the two returns by the cells they read. -/

namespace Sys2Proof.Machine

/-! ### Jumps -/

/-- The next address within the page of `w` (R169), from its bytes: the high byte stays, the low one wraps. -/
theorem wordOf_hiByte_loByte_add_one (w : Addr) :
    wordOf (hiByte w) (loByte w + 1#8) = (w &&& 0xFF00#16) ||| ((w + 1#16) &&& 0x00FF#16) := by
  have hhi : hiByte ((w &&& 0xFF00#16) ||| ((w + 1#16) &&& 0x00FF#16)) = hiByte w := by
    simp only [hiByte, BitVec.extractLsb'_or, BitVec.extractLsb'_and]
    rw [show (0xFF00#16).extractLsb' 8 8 = BitVec.allOnes 8 by decide,
      show (0x00FF#16).extractLsb' 8 8 = 0#8 by decide, BitVec.and_allOnes, BitVec.and_zero, BitVec.or_zero]
  have hlo : loByte ((w &&& 0xFF00#16) ||| ((w + 1#16) &&& 0x00FF#16)) = loByte w + 1#8 := by
    simp only [loByte_eq_setWidth, BitVec.setWidth_or, BitVec.setWidth_and,
      BitVec.setWidth_add _ _ (show 8 ≤ 16 by decide)]
    rw [show (0xFF00#16).setWidth 8 = 0#8 by decide, show (0x00FF#16).setWidth 8 = BitVec.allOnes 8 by decide,
      show (1#16).setWidth 8 = 1#8 by decide, BitVec.and_allOnes, BitVec.and_zero, BitVec.zero_or]
  rw [← hhi, ← hlo, wordOf_hi_lo]

/-- Finding an indirect target changes nothing but the PPU interface. -/
theorem indirectTarget_state (ptr : Addr) (s : State) :
    (indirectTarget ptr s).2 = s.setPpu (indirectTarget ptr s).2.ppu := by
  have h : (indirectTarget ptr s).2 = (load (wordOf (hiByte ptr) (loByte ptr + 1#8)) (load ptr s).2).2 := rfl
  rw [h, load_state (wordOf _ _), load_state ptr]
  rfl

/-- Settles O29: an indirect jump is to the target its two loads give, the second address by its bytes. -/
theorem jumpInstructions : Obligations.JumpInstructions := by
  unfold Obligations.JumpInstructions
  refine ⟨rfl, fun w s => ⟨rfl, ?indirect⟩⟩
  case indirect =>
    rw [← wordOf_hiByte_loByte_add_one]
    change Host.Outcome.next ((indirectTarget w s).2.setPc (indirectTarget w s).1) = _
    rw [indirectTarget_state]
    rfl

/-! ### Trap entry -/

/-- The three cells of a frame lie apart, for every stack pointer. -/
theorem frameCells_ne (sp : Byte) :
    0x100 + sp.toNat ≠ 0x100 + (sp - 1#8).toNat ∧ 0x100 + sp.toNat ≠ 0x100 + (sp - 2#8).toNat ∧
      0x100 + (sp - 1#8).toNat ≠ 0x100 + (sp - 2#8).toNat := by
  refine ⟨?_, ?_, ?_⟩ <;> bv_omega

/-- The three writes of a trap entry leave its frame: each write is to a cell of its own. -/
theorem pushedFrame_write (sp : Byte) (ret : Addr) (status : Byte) (m : Memory) :
    PushedFrame sp ret status m
      (((m.write (0x100 + sp.toNat) (hiByte ret)).write (0x100 + (sp - 1#8).toNat) (loByte ret)).write
        (0x100 + (sp - 2#8).toNat) status) := by
  obtain ⟨h01, h02, h12⟩ := frameCells_ne sp
  refine ⟨?high, ?low, Memory.read_write_same _ _ _, fun k h0 h1 h2 => ?other⟩
  case high => rw [Memory.read_write_other _ _ h02, Memory.read_write_other _ _ h01, Memory.read_write_same]
  case low => rw [Memory.read_write_other _ _ h12, Memory.read_write_same]
  case other => rw [Memory.read_write_other _ _ h2, Memory.read_write_other _ _ h1, Memory.read_write_other _ _ h0]

/-- A word load in the cartridge window answers the vector there and changes nothing (R47, R53). -/
theorem loadWord_vector {a : Addr} (h0 : 0x4020 ≤ a.toNat) (h1 : 0x4020 ≤ (a + 1#16).toNat) (s : State) :
    loadWord a s = (vectorWord s a, s) := by
  simp only [loadWord, load_of_cart (region_cart h0), load_of_cart (region_cart h1), vectorWord]

/-- Trap entry through a vector (R271): a frame on the stack, `SP`, `P.I` and `PC`, and nothing else. -/
theorem enterTrap_vector {vector : Addr} (h0 : 0x4020 ≤ vector.toNat) (h1 : 0x4020 ≤ (vector + 1#16).toNat)
    (ret : Addr) (status : Byte) (s : State) :
    ∃ ram, enterTrap ret status vector s =
        (((s.setRam ram).setSp (s.sp - 3#8)).setP (s.p ||| 0x04#8)).setPc (vectorWord s vector) ∧
      PushedFrame s.sp ret status s.ram ram := by
  refine ⟨_, ?_, pushedFrame_write s.sp ret status s.ram⟩
  rw [enterTrap_eq]
  dsimp only
  rw [loadWord_vector h0 h1]
  rfl

/-- Settles O31: BRK is the trap entry through the IRQ/BRK vector. -/
theorem brkEntersItsHandler : Obligations.BrkEntersItsHandler := by
  unfold Obligations.BrkEntersItsHandler
  refine ⟨rfl, fun s => ?_⟩
  obtain ⟨ram, heq, hframe⟩ := enterTrap_vector (vector := 0xFFFE#16) (by decide) (by decide) (s.pc + 1#16)
    (s.p ||| 0x10#8) s
  exact ⟨ram, congrArg _ heq, hframe⟩

/-! ### Subroutines -/

/-- JSR in closed form (R227). -/
theorem exec_jsrAbs (w : Addr) (s : State) :
    exec (.jsrAbs w) s =
      .next (((s.setRam ((s.ram.write (0x100 + s.sp.toNat) (hiByte (s.pc + 1#16))).write
        (0x100 + (s.sp - 1#8).toNat) (loByte (s.pc + 1#16)))).setSp (s.sp - 2#8)).setPc w) := by
  rw [← pushWord_eq]
  rfl

/-- Settles O30: the pushed word in closed form, its two cells apart. -/
theorem jsrPushesTheReturnAddress : Obligations.JsrPushesTheReturnAddress := by
  unfold Obligations.JsrPushesTheReturnAddress
  refine ⟨rfl, fun w s => ⟨_, exec_jsrAbs w s, ?high, Memory.read_write_same _ _ _, fun k h0 h1 => ?other⟩⟩
  case high => rw [Memory.read_write_other _ _ (frameCells_ne s.sp).1, Memory.read_write_same]
  case other => rw [Memory.read_write_other _ _ h1, Memory.read_write_other _ _ h0]

/-! ### Returns -/

/-- RTS in closed form (R228). -/
theorem exec_rts (s : State) :
    exec .rts s = .next ((s.setSp (s.sp + 2#8)).setPc (stackWord s (s.sp + 2#8) (s.sp + 1#8) + 1#16)) := by
  change Host.Outcome.next ((popWord s).2.setPc ((popWord s).1 + 1#16)) = _
  rw [popWord_eq]
  rfl

/-- RTI in closed form (R231). -/
theorem exec_rti (s : State) :
    exec .rti s =
      .next (((s.setSp (s.sp + 3#8)).setP (s.ram.read (0x100 + (s.sp + 1#8).toNat) ||| 0x20#8)).setPc
        (stackWord s (s.sp + 3#8) (s.sp + 2#8))) := by
  have hhi : s.sp + 1#8 + 2#8 = s.sp + 3#8 := by bv_omega
  have hlo : s.sp + 1#8 + 1#8 = s.sp + 2#8 := by bv_omega
  change Host.Outcome.next (returnFromTrap s) = _
  simp only [returnFromTrap, pop_eq, popWord_eq, State.setP_sp, State.setSp_sp, State.setP_ram, State.setSp_ram,
    hhi, hlo]
  rfl

/-- Settles O32: the closed forms of the pops. -/
theorem returnInstructions : Obligations.ReturnInstructions := by
  unfold Obligations.ReturnInstructions
  exact ⟨rfl, rfl, fun s => ⟨exec_rts s, exec_rti s⟩⟩

end Sys2Proof.Machine


/-! Proofs for the family of spec/49_stack_transfer_flag_nop.md: pushes and pulls by their closed forms, the transfers,
and the flag operations by flag. -/

namespace Sys2Proof.Machine

/-! ### The stack -/

/-- A push puts its byte at the stack cell `SP` denotes (R19). -/
theorem push_puts (v : Byte) (s : State) :
    ∃ m, push v s = (s.setRam m).setSp (s.sp - 1#8) ∧ Puts s.ram m (0x100 + s.sp.toNat) v :=
  ⟨_, push_eq v s, Memory.puts_write _ _ _⟩

/-- Settles O34: PHA and PHP push, PLA and PLP pull, each in the closed form of the stack operation. -/
theorem stackInstructions : Obligations.StackInstructions := by
  unfold Obligations.StackInstructions
  refine ⟨rfl, fun s => ⟨?pha, ?php, ⟨setZN _ s.p, ?pla, setsZN_setZN _ _⟩, ?plp⟩⟩
  case pha =>
    obtain ⟨m, heq, hputs⟩ := push_puts s.a s
    exact ⟨m, congrArg _ heq, hputs⟩
  case php =>
    obtain ⟨m, heq, hputs⟩ := push_puts (s.p ||| 0x30#8) s
    exact ⟨m, congrArg _ heq, hputs⟩
  case pla =>
    change Host.Outcome.next (((pop s).2.setA (pop s).1).setP (setZN (pop s).1 (pop s).2.p)) = _
    rw [pop_eq]
    rfl
  case plp =>
    change Host.Outcome.next ((pop s).2.setP ((pop s).1 ||| 0x20#8)) = _
    rw [pop_eq]

/-! ### Transfers -/

/-- Settles O35: each transfer is its new value and, but for TXS, the `SetZN` of it. -/
theorem transferInstructions : Obligations.TransferInstructions := by
  unfold Obligations.TransferInstructions
  exact fun s => ⟨setZN s.a s.p, setZN s.a s.p, setZN s.sp s.p, setZN s.x s.p, setZN s.y s.p,
    rfl, setsZN_setZN _ _, rfl, setsZN_setZN _ _, rfl, setsZN_setZN _ _, rfl, setsZN_setZN _ _, rfl,
    setsZN_setZN _ _, rfl⟩

/-! ### Flags -/

/-- An instruction that puts a flag in the status writes that flag alone. -/
theorem writesFlag_of_putFlag {i : Instr} {f : Flag} {c : Bool} {s : State}
    (h : exec i s = .next (s.setP (putFlag f c s.p))) :
    ∃ q, exec i s = .next (s.setP q) ∧ getFlag f q = c ∧ ∀ g, g ≠ f → getFlag g q = getFlag g s.p := by
  refine ⟨_, h, ?_, fun g hg => ?_⟩
  · rw [getFlag_putFlag, if_pos rfl]
  · rw [getFlag_putFlag, if_neg hg]

/-- Settles O36: a clear or a set is the put of its one flag. -/
theorem flagInstructionsAndNop : Obligations.FlagInstructionsAndNop := by
  unfold Obligations.FlagInstructionsAndNop
  refine ⟨rfl, fun i f c s h => writesFlag_of_putFlag ?_, fun s => rfl⟩
  simp only [List.mem_cons, Prod.mk.injEq, List.not_mem_nil, or_false] at h
  rcases h with ⟨rfl, rfl, rfl⟩ | ⟨rfl, rfl, rfl⟩ | ⟨rfl, rfl, rfl⟩ | ⟨rfl, rfl, rfl⟩ | ⟨rfl, rfl, rfl⟩ |
    ⟨rfl, rfl, rfl⟩ | ⟨rfl, rfl, rfl⟩
  all_goals rfl

end Sys2Proof.Machine


/-! Proofs for the family of spec/60_exceptions.md: what can fault, the entries of `nmi()` and `irq()`, and the returns
that undo each entry. -/

namespace Sys2Proof.Machine

/-! ### Faults -/

/-- A step that faults did so on a running CPU with a cartridge, at an opcode without a table entry: with an entry it
answers a next state (R260). -/
theorem step_fault {s : State} {f : Fault} (h : step s = .fault f) :
    opEntry (load s.pc s).1 = none ∧ f = .fatalDispatch (load s.pc s).1 s.pc := by
  cases hh : s.halted with
  | some w =>
    rw [(noEffect_of_halted hh).1] at h
    cases h
  | none =>
    cases hs : s.slot with
    | none => simp [step, stepOutcome, hh, hs] at h
    | some sl =>
      cases he : opEntry (load s.pc s).1 with
      | some e =>
        obtain ⟨u, -, -, hst⟩ := step_of_entry hh hs he
        rw [hst] at h
        cases h
      | none =>
        rw [(step_of_undefined hh hs he).2] at h
        cases h
        exact ⟨rfl, rfl⟩

/-- Settles O9: every meaning answers a next state, and a fault of a step is the fatal dispatch. -/
theorem nothingElseFaults : Obligations.NothingElseFaults := by
  unfold Obligations.NothingElseFaults
  exact ⟨exec_next, fun s f h => step_fault h⟩

/-- Settles O8: an undefined opcode has no entry, and the fetch moves `PC` and the PPU interface only. -/
theorem undefinedOpcodeHalts : Obligations.UndefinedOpcodeHalts := by
  unfold Obligations.UndefinedOpcodeHalts
  intro s sl hh hs hop
  obtain ⟨hcpu, hstep⟩ := step_of_undefined hh hs ((opEntry_eq_none_iff _).2 hop)
  rw [fetchOpcode_state] at hcpu
  exact ⟨hstep, hcpu⟩

/-! ### Interrupt entry -/

/-- Settles O56: `nmi()` is the trap entry through its vector, and its cost. -/
theorem nmiEntry : Obligations.NmiEntry := by
  unfold Obligations.NmiEntry
  intro s hh
  obtain ⟨ram, heq, hframe⟩ := enterTrap_vector (vector := Config.vecNmi) (by decide) (by decide) s.pc s.p s
  refine ⟨ram, ?_, hframe⟩
  rw [nmi_of_running hh, heq]
  rfl

/-- `irq()` with the interrupts disabled does nothing (R268). -/
theorem irq_of_masked {s : State} (hm : getFlag .interruptDisable s.p = true) : irq s = s := by
  unfold irq
  split
  · next hf => simp [hm] at hf
  · rfl

/-- `irq()` on a running CPU with the interrupts enabled is the trap entry and its cost (R268). -/
theorem irq_of_enabled {s : State} (hh : s.halted = none) (hm : getFlag .interruptDisable s.p = false) :
    irq s = (enterTrap s.pc (s.p &&& 0xEF#8) Config.vecIrq s).setCyc (s.cyc + 7) := by
  unfold irq
  rw [hh, hm]
  dsimp only
  rw [show ~~~0x10#8 = 0xEF#8 by decide, enterTrap_eq]
  rfl

/-- Settles O57: masked, nothing; otherwise the trap entry through the IRQ vector, and its cost. -/
theorem irqEntry : Obligations.IrqEntry := by
  unfold Obligations.IrqEntry
  refine fun s hh => ⟨irq_of_masked, fun hm => ?_⟩
  obtain ⟨ram, heq, hframe⟩ := enterTrap_vector (vector := Config.vecIrq) (by decide) (by decide) s.pc
    (s.p &&& 0xEF#8) s
  refine ⟨ram, ?_, hframe⟩
  rw [irq_of_enabled hh hm, heq]
  rfl

/-! ### Returns undo their entries -/

/-- RTI from a pushed frame, wherever the handler has moved `PC`: the stack pointer, the status and the return address
of the frame come back (R231, R272). -/
theorem exec_rti_of_pushedFrame {sp status : Byte} {ret : Addr} {m : Memory} {t : State} (hsp : t.sp = sp - 3#8)
    (hframe : PushedFrame sp ret status m t.ram) (pc : Addr) :
    exec .rti (t.setPc pc) = .next (((t.setSp sp).setP (status ||| 0x20#8)).setPc ret) := by
  obtain ⟨hhi, hlo, hstatus, -⟩ := hframe
  have h1 : sp - 3#8 + 1#8 = sp - 2#8 := by bv_omega
  have h2 : sp - 3#8 + 2#8 = sp - 1#8 := by bv_omega
  have h3 : sp - 3#8 + 3#8 = sp := by bv_omega
  rw [exec_rti]
  simp only [stackWord, State.setPc_sp, State.setPc_ram, hsp, h1, h2, h3, hhi, hlo, hstatus, wordOf_hi_lo]
  rfl

/-- RTS from a pushed word, wherever the subroutine has moved `PC` (R228). -/
theorem exec_rts_of_pushedWord {sp : Byte} {ret : Addr} {t : State} (hsp : t.sp = sp - 2#8)
    (hhi : t.ram.read (0x100 + sp.toNat) = hiByte ret) (hlo : t.ram.read (0x100 + (sp - 1#8).toNat) = loByte ret)
    (pc : Addr) : exec .rts (t.setPc pc) = .next ((t.setSp sp).setPc (ret + 1#16)) := by
  have h1 : sp - 2#8 + 1#8 = sp - 1#8 := by bv_omega
  have h2 : sp - 2#8 + 2#8 = sp := by bv_omega
  rw [exec_rts]
  simp only [stackWord, State.setPc_sp, State.setPc_ram, hsp, h1, h2, hhi, hlo, wordOf_hi_lo]
  rfl

/-- Settles O33: each entry leaves a word or a frame on the stack, which its return takes off again. -/
theorem returnsUndoTheirEntries : Obligations.ReturnsUndoTheirEntries := by
  unfold Obligations.ReturnsUndoTheirEntries
  refine fun s w pc hh => ⟨fun t ht => ?jsr, fun t ht => ?brk, ?nmi, fun hm => ?irq⟩
  case jsr =>
    obtain ⟨ram, he, hhi, hlo, -⟩ := jsrPushesTheReturnAddress.2 w s
    cases he.symm.trans ht
    have hnext : s.pc + 2#16 = s.pc + 1#16 + 1#16 := by bv_omega
    rw [hnext]
    exact exec_rts_of_pushedWord rfl hhi hlo pc
  case brk =>
    obtain ⟨ram, he, hframe⟩ := brkEntersItsHandler.2 s
    cases he.symm.trans ht
    have hstatus : s.p ||| 0x30#8 = (s.p ||| 0x10#8) ||| 0x20#8 := by
      rw [BitVec.or_assoc]
      rfl
    rw [hstatus]
    exact exec_rti_of_pushedFrame rfl hframe pc
  case nmi =>
    obtain ⟨ram, he, hframe⟩ := nmiEntry s hh
    rw [he]
    exact exec_rti_of_pushedFrame rfl hframe pc
  case irq =>
    obtain ⟨ram, he, hframe⟩ := (irqEntry s hh).2 hm
    rw [he]
    exact exec_rti_of_pushedFrame rfl hframe pc

end Sys2Proof.Machine


/-! Proofs for the family of spec/70_reset_and_hazards.md: what `reset()` leaves, the step by the bytes it fetches, what
a step leaves to the Driver, the block under the host operations, and the Driver iteration. -/

namespace Sys2Proof.Machine

/-! ### Reset -/

/-- Settles O55: the vector load has no side effect, and the constructed block answers 0 to it. -/
theorem resetLeavesTheStatedValues : Obligations.ResetLeavesTheStatedValues := by
  unfold Obligations.ResetLeavesTheStatedValues
  refine ⟨fun s => ?writes, ?constructed⟩
  case writes =>
    rw [resetBlock, loadWord_vector (by decide) (by decide)]
    rfl
  case constructed => decide

/-! ### The step by the bytes it fetches -/

/-- `finish` is what the statements say `step()` does after the handler (R296). -/
theorem finish_eq_afterHandler (e : OpEntry) (t : State) : finish e t = afterHandler e t := by
  unfold finish afterHandler
  split
  · rfl
  · simp

/-- The bytes that an entry's mode loads, after the entry's opcode, decode to the instruction that the fetch makes of
them (R140, R141). -/
theorem decode_fetched {op : Byte} {e : OpEntry} (h : opEntry op = some e) (s : State) :
    decode (op :: [(fetchOperands e.mode.operandBytes s).1.1, (fetchOperands e.mode.operandBytes s).1.2].take
      e.mode.operandBytes) = .ok (fetchedInstr e s) [] := by
  unfold fetchedInstr
  have hle := operandBytes_le e.mode
  match hn : e.mode.operandBytes with
  | 0 => exact decode_of_entry0 h hn _
  | 1 => exact decode_of_entry1 h hn _ _
  | 2 => exact decode_of_entry2 h hn _ _ _
  | n + 3 => omega

/-- Settles O6: the step of an entry, with the fetches in closed form. -/
theorem stepRunsDecodedInstruction : Obligations.StepRunsDecodedInstruction := by
  unfold Obligations.StepRunsDecodedInstruction
  intro s sl e hh hs he
  obtain ⟨u, hexec, -, hstep⟩ := step_of_entry hh hs he
  rw [fetchOpcode_state, handlerState, fetchOperands_state] at hexec
  rw [finish_eq_afterHandler] at hstep
  exact ⟨_, u, decode_fetched he _, hexec, hstep⟩

/-- Outside the PPU window, fetching the operand bytes changes nothing, and the opcode and the next two bytes decode to
the instruction that the fetch makes of them. -/
theorem fetch_of_peek {op : Byte} {e : OpEntry} (h : opEntry op = some e) {s : State} (h0 : ∀ r, region s.pc ≠ .ppu r)
    (h1 : ∀ r, region (s.pc + 1#16) ≠ .ppu r) :
    handlerState e s = s ∧ ∃ rest, decode [op, peek s.pc s, peek (s.pc + 1#16) s] = .ok (fetchedInstr e s) rest := by
  unfold handlerState fetchedInstr
  have hle := operandBytes_le e.mode
  match hn : e.mode.operandBytes with
  | 0 => exact ⟨rfl, _, decode_of_entry0 h hn _⟩
  | 1 =>
    rw [fetchOperands, load_eq_peek h0]
    exact ⟨rfl, _, decode_of_entry1 h hn _ _⟩
  | 2 =>
    rw [fetchOperands, load_eq_peek h0, load_eq_peek h1]
    exact ⟨rfl, _, decode_of_entry2 h hn _ _ _⟩
  | n + 3 => omega

/-- Settles O7: outside the PPU window every fetch is a peek, so the instruction fetched is the one that stands
there. -/
theorem stepRunsTheBytesAtPc : Obligations.StepRunsTheBytesAtPc := by
  unfold Obligations.StepRunsTheBytesAtPc
  intro s sl i rest hh hs hcode hdec
  have hnext : s.pc + 2#16 = s.pc + 1#16 + 1#16 := by
    rw [BitVec.add_assoc]
    rfl
  have h0 : ∀ r, region s.pc ≠ .ppu r := by simpa using hcode 0 (by decide)
  have h1 : ∀ r, region (s.pc + 1#16) ≠ .ppu r := hcode 1 (by decide)
  have h2 : ∀ r, region (s.pc + 1#16 + 1#16) ≠ .ppu r := hnext ▸ hcode 2 (by decide)
  have hload := load_eq_peek h0 s
  obtain ⟨e, _, _, he, -, hbytes⟩ := decode_ok hdec
  rw [← (List.cons.inj hbytes).1] at he
  obtain ⟨u, hexec, -, hstep⟩ := step_of_entry hh hs (by rw [hload]; exact he)
  have hfetch : (fetchOpcode s).2 = s.setPc (s.pc + 1#16) := by
    rw [fetchOpcode_state, hload]
    rfl
  obtain ⟨hsame, rest', hdec'⟩ := fetch_of_peek he (s := s.setPc (s.pc + 1#16)) h1 h2
  rw [hnext] at hdec
  obtain ⟨rfl, -⟩ := DecodeResult.ok.inj (hdec.symm.trans hdec')
  rw [hfetch, hsame] at hexec
  rw [finish_eq_afterHandler] at hstep
  exact ⟨e, u, he, hexec, hstep⟩

/-! ### What a step leaves to the Driver -/

theorem ppuRegRead_dmaDone (i : BitVec 3) (slot : Option Slot) (u : Ppu) :
    (ppuRegRead i slot u).2.dmaDone = u.dmaDone := by
  unfold ppuRegRead
  split
  case h_3 =>
    unfold Ppu.readData
    dsimp only
    split <;> rfl
  all_goals rfl

theorem load_dmaDone (a : Addr) (s : State) : (load a s).2.ppu.dmaDone = s.ppu.dmaDone := by
  unfold load
  split
  case h_2 i _ => exact ppuRegRead_dmaDone i s.slot s.ppu
  all_goals rfl

theorem ppuRegWrite_dmaDone (i : BitVec 3) (v : Byte) (slot : Option Slot) (u : Ppu) :
    (ppuRegWrite i v slot u).2.dmaDone = u.dmaDone := by
  unfold ppuRegWrite
  split
  case h_6 =>
    unfold Ppu.writeScroll
    split <;> rfl
  case h_7 =>
    unfold Ppu.writeAddr
    split <;> rfl
  case h_8 =>
    unfold Ppu.writeData
    dsimp only
    rw [vramStore_snd_eq]
  all_goals rfl

/-- A store raises the DMA signal or leaves it: none but the DMA writes it (R125). -/
theorem store_dmaDone {s : State} (h : s.ppu.dmaDone = true) (a : Addr) (v : Byte) :
    (store a v s).ppu.dmaDone = true := by
  unfold store
  split
  case h_2 i _ => exact (ppuRegWrite_dmaDone i v s.slot s.ppu).trans h
  case h_4 =>
    rw [oamDma_eq]
    rfl
  all_goals exact h

/-- No instruction clears the DMA signal (R32). -/
theorem closed_dmaDone : Closed fun s => s.ppu.dmaDone = true where
  setA _ _ h := h
  setX _ _ h := h
  setY _ _ h := h
  setSp _ _ h := h
  setPc _ _ h := h
  setP _ _ _ h := h
  load a s h := by rw [load_dmaDone, h]
  store a v _ h := store_dmaDone h a v

/-- A step that answers a next state keeps the Halted record (R23; assumption 7). -/
theorem step_halted {s t : State} (h : step s = .next t) : t.halted = s.halted := by
  rcases step_next h with ⟨-, rfl⟩ | ⟨-, -, e, u, -, hu, rfl⟩
  · rfl
  · have hu := (exec_cyc_halted hu).2
    rw [handlerState_state] at hu
    exact hu

/-- A step leaves the PPU position and the signals of the PPU's own clock (R301). -/
theorem step_clock {s t : State} (h : step s = .next t) : t.ppu.clockPart = s.ppu.clockPart :=
  (closed_clock s.ppu.clockPart).step (fun _ _ h => h) rfl h

/-- Settles O17: the clock's part, the DMA signal and the Halted record are kept by every elementary change. -/
theorem stepLeavesThePpuClockToTheDriver : Obligations.StepLeavesThePpuClockToTheDriver := by
  unfold Obligations.StepLeavesThePpuClockToTheDriver
  intro s t h
  have hclock := step_clock h
  simp only [Ppu.clockPart, Prod.mk.injEq] at hclock
  obtain ⟨hline, hdot, hnmi, hframe⟩ := hclock
  exact ⟨hline, hdot, hnmi, hframe, fun hd => closed_dmaDone.step (fun _ _ h => h) hd h, step_halted h⟩

/-! ### The block under the host operations -/

theorem State.ppu_wf {s : State} (h : s.wf = true) : s.ppu.wf = true := ((State.wf_iff s).1 h).2.2

/-- Well-formedness sees neither the cycle counter nor a signal, and a PPU cycle keeps it. -/
theorem hostClosed_wf : HostClosed fun s => s.wf = true where
  toClosed := closed_wf
  setCyc _ _ h := h
  ppuTicks n s h := by
    obtain ⟨hram, hslot, hppu⟩ := (State.wf_iff s).1 h
    exact (State.wf_iff _).2 ⟨hram, hslot, Ppu.ticks_wf n hppu⟩
  clearDma _ h := h
  clearNmi _ h := h
  clearFrame _ h := h

theorem resetBlock_wf {s : State} (h : s.wf = true) : (resetBlock s).wf = true := closed_wf.loadWord Config.vecReset h

/-- The power-on engine of a supported mapper id fits that id (R70, R78). -/
theorem engineFits_powerOnEngine {id : Byte} (h : id.toNat ≤ 3) : engineFits id (powerOnEngine id.toNat) = true := by
  revert id
  decide

/-- An accepted image names at least one PRG bank (R67). -/
theorem one_le_prgBanks_of_installed {img : List Byte} {s t : State} (h : installCartridge img s = .installed t) :
    1 ≤ (parseHeader img).prgBanks := by
  by_contra hlt
  have herr := ((parseHeader img).error_isSome img.length).2 (.inr (.inl (by omega)))
  obtain ⟨e, he⟩ := (installCartridge_refused (s := s)).2 herr
  rw [he] at h
  cases h

/-- The slot of an accepted image is well formed: its counts are bytes, its data are slices of the sizes the counts
give, and its engine is fresh (R66 to R73). -/
theorem freshSlot_wf {img : List Byte} (hprg : 1 ≤ (parseHeader img).prgBanks)
    (hid : (parseHeader img).mapperId.toNat ≤ 3) :
    (freshSlot (cartridgeOf img) (powerOnEngine (parseHeader img).mapperId.toNat)).wf = true := by
  have hprgMax : (parseHeader img).prgBanks ≤ 255 := Nat.le_of_lt_succ (imageByte img 4).isLt
  have hchrMax : (parseHeader img).chrBanks ≤ 255 := Nat.le_of_lt_succ (imageByte img 5).isLt
  have hmirror : (parseHeader img).mirroring = .horizontal ∨ (parseHeader img).mirroring = .vertical := by
    rw [parseHeader_mirroring]
    split <;> simp
  simp only [Slot.wf, Bool.and_eq_true, decide_eq_true_eq]
  refine ⟨⟨⟨⟨⟨⟨⟨⟨hprg, hprgMax⟩, hchrMax⟩, hmirror⟩, ?prg⟩, ?chr⟩, rfl⟩, .inr rfl⟩, engineFits_powerOnEngine hid⟩
  case prg => exact Memory.canonical_ofBytes (List.length_take_le _ _)
  case chr => exact Memory.canonical_ofBytes (List.length_take_le _ _)

theorem installCartridge_wf {img : List Byte} {s t : State} (hs : s.wf = true)
    (h : installCartridge img s = .installed t) : t.wf = true := by
  obtain ⟨hram, -, hppu⟩ := (State.wf_iff s).1 hs
  obtain ⟨hid, rfl⟩ := installCartridge_installed h
  exact (State.wf_iff _).2 ⟨hram, freshSlot_wf (one_le_prgBanks_of_installed h) hid, hppu⟩

/-- Settles O14: the invariant survives what the host and the Driver write, and an installed slot meets it afresh. -/
theorem hostOperationsKeepTheBlockWellFormed : Obligations.HostOperationsKeepTheBlockWellFormed := by
  unfold Obligations.HostOperationsKeepTheBlockWellFormed
  intro s h
  exact ⟨resetBlock_wf h, hostClosed_wf.nmi h, hostClosed_wf.irq h, fun n => hostClosed_wf.ppuTicks n s h,
    fun _ _ e => installCartridge_wf h e, fun _ e => hostClosed_wf.driverIteration h e⟩

/-! ### PPU cycles in a row -/

/-- A PPU cycle does not write the DMA signal. -/
theorem Ppu.tick_dmaDone (u : Ppu) : u.tick.dmaDone = u.dmaDone := by
  have hadvance : u.advance.dmaDone = u.dmaDone := by rw [u.advance_eq]
  unfold Ppu.tick
  dsimp only
  split_ifs <;> exact hadvance

theorem Ppu.ticks_dmaDone (n : Nat) (u : Ppu) : (u.ticks n).dmaDone = u.dmaDone := by
  induction n generalizing u with
  | zero => rfl
  | succ n ih => rw [Ppu.ticks, ih, Ppu.tick_dmaDone]

section
variable {u : Ppu} (h : u.wf = true)
include h

/-- A position lies in the frame of 89342 cycles (R128). -/
theorem framePosition_lt : framePosition u < 89342 := by
  obtain ⟨-, -, -, hline, hdot, -⟩ := (Ppu.wf_iff u).1 h
  simp only [framePosition, Config.linesPerFrame, Config.dotsPerLine] at hline hdot ⊢
  omega

/-- The tick that arrives at the vblank start raises the request if NMIs are enabled; no other tick touches it
(R129). -/
theorem Ppu.tick_nmiRequest :
    u.tick.nmiRequest = true ↔ u.nmiRequest = true ∨
      (u.ctrl.getLsbD 7 = true ∧ (framePosition u + 1) % 89342 = 241 * 341 + 1) := by
  obtain ⟨hpos, hset, hclear, hother⟩ := ppuTickAdvancesTheFrame u h
  rw [← hpos]
  by_cases h1 : framePosition u.tick = 241 * 341 + 1
  · have hreq : u.tick.nmiRequest = (u.nmiRequest || u.ctrl.getLsbD 7) := by rw [hset h1]
    simp [hreq, h1]
  · have hreq : u.tick.nmiRequest = u.nmiRequest := by
      by_cases h2 : framePosition u.tick = 261 * 341 + 1
      · rw [hclear h2]
      · rw [hother h1 h2]
    simp only [hreq, h1, and_false, or_false]

end

/-- `n` ticks move the position by `n` in the frame. -/
theorem framePosition_ticks (n : Nat) {u : Ppu} (h : u.wf = true) :
    framePosition (u.ticks n) = (framePosition u + n) % 89342 := by
  induction n generalizing u with
  | zero => rw [Ppu.ticks, Nat.add_zero, Nat.mod_eq_of_lt (framePosition_lt h)]
  | succ n ih =>
    rw [Ppu.ticks, ih (Ppu.tick_wf h), (ppuTickAdvancesTheFrame u h).1]
    omega

/-- After `n` ticks an NMI request is pending when it was before, or NMIs are enabled and one of the ticks arrived at
the vblank start. -/
theorem Ppu.ticks_nmiRequest (n : Nat) {u : Ppu} (h : u.wf = true) :
    (u.ticks n).nmiRequest = true ↔ u.nmiRequest = true ∨
      (u.ctrl.getLsbD 7 = true ∧ ∃ k, k < n ∧ (framePosition u + 1 + k) % 89342 = 241 * 341 + 1) := by
  induction n generalizing u with
  | zero => simp [Ppu.ticks]
  | succ n ih =>
    have hshift : ∀ k, (framePosition u.tick + 1 + k) % 89342 = (framePosition u + 1 + (k + 1)) % 89342 := by
      intro k
      rw [(ppuTickAdvancesTheFrame u h).1]
      omega
    rw [Ppu.ticks, ih (Ppu.tick_wf h), Ppu.tick_nmiRequest h, Ppu.tick_ctrl, Nat.exists_lt_succ_left]
    simp only [hshift, Nat.add_zero, and_or_left, or_assoc]

/-! ### The Driver iteration -/

/-- The stall cycles that the Driver owes after a step (R126). -/
def stallAfter (s : State) : Nat := if s.ppu.dmaDone then 513 else 0

/-- The block after the stall and the PPU cycles of a step that left `s` and took `c` cycles, before the Driver looks at
the NMI request (R302). -/
def beforeNmi (s : State) (c : Nat) : State :=
  ppuTicks (3 * (c + stallAfter s)) ((s.setPpu { s.ppu with dmaDone := false }).setCyc (s.cyc + stallAfter s))

theorem settleDma_eq (s : State) (c : Nat) :
    settleDma s c =
      ((s.setPpu { s.ppu with dmaDone := false }).setCyc (s.cyc + stallAfter s), c + stallAfter s) := by
  unfold settleDma stallAfter
  split
  · rfl
  · next hd =>
    rw [← Bool.eq_false_iff.2 hd]
    rfl

theorem driverAfter_eq (s : State) (c : Nat) : driverAfter s c = settleFrame (settleNmi (beforeNmi s c)) := by
  rw [driverAfter, settleDma_eq]
  rfl

section
variable {s : State}

theorem settleNmi_of_pending (h : s.ppu.nmiRequest = true) :
    settleNmi s = ppuTicks 21 (nmi (s.setPpu { s.ppu with nmiRequest := false })) := if_pos h

theorem settleNmi_of_idle (h : s.ppu.nmiRequest = false) : settleNmi s = s := if_neg (by simp [h])

/-- With a request pending, the Driver runs the PPU for 21 cycles more, from the cleared request. -/
theorem settleNmi_ppu_of_pending (h : s.ppu.nmiRequest = true) :
    (settleNmi s).ppu = ({ s.ppu with nmiRequest := false } : Ppu).ticks 21 := by
  rw [settleNmi_of_pending h, ppuTicks_ppu, nmi_ppu]
  rfl

theorem nmi_cyc (hh : s.halted = none) : (nmi s).cyc = s.cyc + 7 := by
  rw [nmi_of_running hh]
  rfl

theorem settleNmi_cyc_of_pending (hh : s.halted = none) (h : s.ppu.nmiRequest = true) :
    (settleNmi s).cyc = s.cyc + 7 := by
  rw [settleNmi_of_pending h, ppuTicks_cyc]
  exact nmi_cyc (s := s.setPpu _) hh

theorem beforeNmi_wf (h : s.wf = true) (c : Nat) : (beforeNmi s c).wf = true :=
  hostClosed_wf.ppuTicks _ _ (hostClosed_wf.setCyc _ _ (hostClosed_wf.clearDma _ h))

theorem framePosition_beforeNmi (h : s.wf = true) (c : Nat) :
    framePosition (beforeNmi s c).ppu = (framePosition s.ppu + 3 * (c + stallAfter s)) % 89342 :=
  framePosition_ticks _ (State.ppu_wf h)

theorem nmiRequest_beforeNmi (h : s.wf = true) (c : Nat) :
    (beforeNmi s c).ppu.nmiRequest = true ↔ s.ppu.nmiRequest = true ∨
      (s.ppu.ctrl.getLsbD 7 = true ∧
        ∃ k, k < 3 * (c + stallAfter s) ∧ (framePosition s.ppu + 1 + k) % 89342 = 241 * 341 + 1) :=
  Ppu.ticks_nmiRequest _ (State.ppu_wf h)

end

/-- A step moves neither the position nor the NMI request (R301). -/
theorem step_framePosition_nmiRequest {s u : State} (h : step s = .next u) :
    framePosition u.ppu = framePosition s.ppu ∧ u.ppu.nmiRequest = s.ppu.nmiRequest := by
  obtain ⟨hline, hdot, hnmi, -⟩ := stepLeavesThePpuClockToTheDriver s u h
  exact ⟨by rw [framePosition, framePosition, hline, hdot], hnmi⟩

/-- Settles O59: the iteration is `driverAfter`, which is two cases by the request pending before the NMI is settled. -/
theorem driverIterationDuties : Obligations.DriverIterationDuties := by
  unfold Obligations.DriverIterationDuties
  intro s u c hwf hh hstep hcyc stall v
  have hu := stepKeepsTheBlockWellFormed s u hwf hstep
  obtain ⟨hpos, hnmi⟩ := step_framePosition_nmiRequest hstep
  have hvpos : framePosition v.ppu = (framePosition s.ppu + 3 * (c + stall)) % 89342 := by
    rw [← hpos]
    exact framePosition_beforeNmi hu c
  have hvcyc : v.cyc = s.cyc + (c + stall) := by
    rw [← Nat.add_assoc, ← hcyc]
    rfl
  have ht : driverIteration s = .next (settleFrame (settleNmi v)) := by
    rw [driverIteration_of_step hh hstep hcyc, driverAfter_eq]
    rfl
  refine ⟨?pending, ?_⟩
  case pending =>
    rw [← hpos, ← hnmi]
    exact nmiRequest_beforeNmi hu c
  cases hreq : v.ppu.nmiRequest with
  | false =>
    rw [settleNmi_of_idle hreq] at ht
    exact ⟨_, c + stall, ht, hvcyc, hvpos, fun _ => ⟨rfl, rfl⟩, nofun⟩
  | true =>
    have hvwf : v.ppu.wf = true := State.ppu_wf (beforeNmi_wf hu c)
    refine ⟨_, c + stall + 7, ht, ?cyc, ?pos, nofun, fun _ => ⟨rfl, ?eq⟩⟩
    case cyc =>
      have hvh : v.halted = none := (step_halted hstep).trans hh
      rw [settleFrame_cyc, settleNmi_cyc_of_pending hvh hreq, hvcyc, Nat.add_assoc]
    case pos =>
      have hticks := framePosition_ticks 21 (u := { v.ppu with nmiRequest := false }) hvwf
      rw [← settleNmi_ppu_of_pending hreq] at hticks
      change framePosition (settleNmi v).ppu = _
      rw [hticks]
      change (framePosition v.ppu + 21) % 89342 = _
      omega
    case eq =>
      rw [settleNmi_of_pending hreq]
      rfl

/-- A request that the PPU cycles of one step raised, once cleared, is not raised again by the 21 cycles of `nmi()`: the
vblank start is a whole frame away. -/
theorem nmiRequest_settleNmi {s : State} (h : s.wf = true) (hreq : s.ppu.nmiRequest = false) {c : Nat} (hc : c ≤ 7) :
    (settleNmi (beforeNmi s c)).ppu.nmiRequest = false := by
  have hpos := framePosition_beforeNmi h c
  have hrequested := nmiRequest_beforeNmi h c
  have hwf : (beforeNmi s c).ppu.wf = true := State.ppu_wf (beforeNmi_wf h c)
  have hstall : stallAfter s ≤ 513 := by
    unfold stallAfter
    split <;> decide
  generalize beforeNmi s c = v at hpos hrequested hwf
  cases hv : v.ppu.nmiRequest with
  | false => rw [settleNmi_of_idle hv, hv]
  | true =>
    obtain hpending | ⟨-, k, hk, hstart⟩ := hrequested.1 hv
    · simp [hreq] at hpending
    · have hagain := Ppu.ticks_nmiRequest 21 (u := { v.ppu with nmiRequest := false }) hwf
      rw [settleNmi_ppu_of_pending hv, Bool.eq_false_iff]
      intro hraised
      obtain hpending | ⟨-, k', hk', hstart'⟩ := hagain.1 hraised
      · cases hpending
      · change (framePosition v.ppu + 1 + k') % 89342 = 241 * 341 + 1 at hstart'
        omega

/-- The DMA signal is clear from the stall on: neither PPU cycles nor `nmi()` write it. -/
theorem dmaDone_settleNmi (s : State) (c : Nat) : (settleNmi (beforeNmi s c)).ppu.dmaDone = false := by
  have hv : (beforeNmi s c).ppu.dmaDone = false := Ppu.ticks_dmaDone _ _
  generalize beforeNmi s c = v at hv
  cases hreq : v.ppu.nmiRequest with
  | false => rw [settleNmi_of_idle hreq, hv]
  | true => rw [settleNmi_ppu_of_pending hreq, Ppu.ticks_dmaDone, hv]

/-- Settles O60: the iteration is `driverAfter` of a step of at most seven cycles, which clears each signal in turn and
raises none of them again. -/
theorem driverIterationClearsTheSignals : Obligations.DriverIterationClearsTheSignals := by
  unfold Obligations.DriverIterationClearsTheSignals
  intro s t hwf hh hreq h
  rcases driverIteration_next h with ⟨hsome, -⟩ | ⟨u, _, hstep, -⟩
  · simp [hh] at hsome
  · obtain ⟨e, -, hcyc, -, hle⟩ := stepAddsTheBaseCost s u hh hstep
    have hu := stepKeepsTheBlockWellFormed s u hwf hstep
    obtain rfl : driverAfter u e.cycles = t := by
      simpa [driverIteration_of_step hh hstep hcyc] using h
    rw [driverAfter_eq]
    exact ⟨nmiRequest_settleNmi hu ((step_framePosition_nmiRequest hstep).2.trans hreq) hle, rfl,
      dmaDone_settleNmi u e.cycles⟩

end Sys2Proof.Machine
